-- ==== Sys2Proof/Word.lean ====
section
/-!
DEFINITION. The words of the block: a level, a duration, the frame, the two instruction words of
30_encoding.md (R41, R45), and a segment of a trace (00_scope.md section 4, R50).
-/

namespace Sys2Proof

/-- A level of the line, one bit: `true` is HIGH (1), `false` is LOW (0) (R8). -/
abbrev Level := Bool

/-- A duration in microseconds, which are ticks: 16 bits unsigned (R5, R15, R56). -/
abbrev Duration := BitVec 16

/-- The 56-bit frame: byte 0 in bits 55:48, byte 6 in bits 7:0 (R12, R31). -/
abbrev FrameWord := BitVec 56

/-- The command word on the port `cmd` (R41). -/
abbrev CmdWord := BitVec 66

/-- The micro-operation word inside the block (R45). -/
abbrev MicroWord := BitVec 18

/-- An instruction word in one of the two formats of the opcode table: CMD66 and UOP18. -/
inductive CodeWord where
  /-- a host command's word (R41) -/
  | cmd66 (w : CmdWord)
  /-- a micro-operation's word (R45) -/
  | uop18 (w : MicroWord)
  deriving DecidableEq, Repr

/-- A segment: the line held at `level` for `ticks` ticks by one HOLD (R50). -/
structure Seg where
  level : Level
  ticks : Nat
  deriving DecidableEq, Repr

end Sys2Proof
end

