-- ==== Sys2Proof/Machine/Params.lean ====
section
/-!
DEFINITION. The protocol constants and parameters of R5 that the spec fixes. The five fixed durations do not depend
on the symbol (R6).
-/

namespace Sys2Proof.Machine

/-- T_WAKE_HI: hardware wake-up, line HIGH (R61). -/
def tWakeHi : Duration := 9415
/-- T_WAKE_LO: hardware wake-up, line LOW, first hold (R61). -/
def tWakeLo : Duration := 24030
/-- T_WAKE_LO2: hardware wake-up, line LOW, additional hold (R61). -/
def tWakeLo2 : Duration := 65535
/-- T_START_HI: frame-start pulse, line HIGH (R63). -/
def tStartHi : Duration := 4550
/-- T_SILENCE: trailing silence, line LOW (R66). -/
def tSilence : Duration := 30415
/-- SYNC_FIRST: the sync count of a burst's first transmission, and the value that enables the wake-up (R13, R61). -/
def syncFirst : BitVec 8 := 2
/-- SYNC_REPEAT: the sync count of each repeat (R13, R80). -/
def syncRepeat : BitVec 8 := 7
/-- SYNC_MULT: each sync pulse is HIGH and LOW for this many symbols (R62). -/
def syncMult : Nat := 4
/-- N_BITS: data bits of a frame (R5). -/
def nBits : Nat := 56
/-- N_TX: transmissions in a burst (R5). -/
def nTx : Nat := 3
/-- SYMBOL_MIN (R5, R14). -/
def symbolMin : Nat := 1
/-- SYMBOL_MAX (R5, R14): `4 x SYMBOL` must fit the 16-bit hold counter. -/
def symbolMax : Nat := 16383

end Sys2Proof.Machine
end

