-- ==== Sys2Proof/Syntax.lean ====
section
/-!
DEFINITION. The instructions: one constructor per row of spec/opcode_table.json. The first four are the host
commands, which arrive on the command port (R43); the last three are the Bit Timer's micro-operations, which the
sequencer issues and which never appear on a port (R45).
-/

namespace Sys2Proof

inductive Instr where
  /-- NOP (R84) -/
  | nop
  /-- SEND h: a burst of three transmissions of one frame (R80) -/
  | send (frame : FrameWord)
  /-- TRANSMIT n, h: one transmission with sync count n (R60, R85) -/
  | transmit (sync : BitVec 8) (frame : FrameWord)
  /-- SETSYM n: set the symbol duration (R83) -/
  | setsym (imm : BitVec 16)
  /-- HOLD d (R53) -/
  | hold (d : Duration)
  /-- SET_LEVEL l (R51) -/
  | setLevel (l : Level)
  /-- TOGGLE (R52) -/
  | toggle
  deriving DecidableEq, Repr

end Sys2Proof
end

