-- ==== Sys2Proof/WellFormed.lean ====
section
/-!
DEFINITION. Which operands the spec's syntax admits (R46). Every command word is legal (R44, R110); the one bound
is HOLD's, 1..65535 (R53, R56): "HOLD 0 is never issued and has no meaning" (92_eei_decisions.md D3).
-/

namespace Sys2Proof

/-- The operands are within the ranges of R46. -/
def WellFormed : Instr → Bool
  | .nop => true
  | .send _ => true
  | .transmit _ _ => true
  | .setsym _ => true
  | .hold d => d != 0
  | .setLevel _ => true
  | .toggle => true

end Sys2Proof
end

