-- ==== Sys2Proof/Decode.lean ====
section
/-!
DEFINITION. The decoder of both word formats, the encoder, and the two views the host asks for. The command decoder
is total (R43) and looks at no unused field (R44). The micro-operation decoder refuses by name the words no rule
gives a meaning (R45).
-/

namespace Sys2Proof

/-- Why a word is refused. -/
inductive DecodeError where
  /-- a micro-operation word with `kind` 3, "never generated" (R45) -/
  | microKindThree
  /-- a SET_LEVEL word with a nonzero bit in 15:1, "never generated" (R45) -/
  | setLevelHighBits
  /-- a TOGGLE word with a nonzero argument: the table's mask covers all 18 bits (R45) -/
  | toggleArgument
  /-- bits above the format's width: no such bit exists -/
  | bitsAboveWord
  deriving DecidableEq, Repr

/-! ## Command words (R41, R42) -/

/-- Field `op`, bits 65:64. -/
def cmdOp (w : CmdWord) : BitVec 2 := w.extractLsb' 64 2
/-- Field `sync`, bits 63:56. -/
def cmdSync (w : CmdWord) : BitVec 8 := w.extractLsb' 56 8
/-- Field `frame`, bits 55:0. -/
def cmdFrame (w : CmdWord) : FrameWord := w.extractLsb' 0 56
/-- Field `imm16`, bits 15:0, overlapping `frame[15:0]`. -/
def cmdImm16 (w : CmdWord) : BitVec 16 := w.extractLsb' 0 16

/-- The opcode map of R43: total, two bits, four commands. -/
def decodeCommand (w : CmdWord) : Instr :=
  if cmdOp w = 0 then .nop
  else if cmdOp w = 1 then .send (cmdFrame w)
  else if cmdOp w = 2 then .transmit (cmdSync w) (cmdFrame w)
  else .setsym (cmdImm16 w)

/-! ## Micro-operation words (R45) -/

/-- Field `kind`, bits 17:16. -/
def uopKind (w : MicroWord) : BitVec 2 := w.extractLsb' 16 2
/-- Field `arg`, bits 15:0. -/
def uopArg (w : MicroWord) : BitVec 16 := w.extractLsb' 0 16

/-- The table of R45. HOLD's word with a zero argument decodes to `hold 0`, which `WellFormed` refuses and
whose meaning is a fault. -/
def decodeMicro (w : MicroWord) : Except DecodeError Instr :=
  if uopKind w = 0 then .ok (.hold (uopArg w))
  else if uopKind w = 1 then
    if (uopArg w).extractLsb' 1 15 = 0 then .ok (.setLevel ((uopArg w).getLsbD 0))
    else .error .setLevelHighBits
  else if uopKind w = 2 then
    if uopArg w = 0 then .ok .toggle else .error .toggleArgument
  else .error .microKindThree

/-- The decoder of both formats. -/
def decode : CodeWord → Except DecodeError Instr
  | .cmd66 w => .ok (decodeCommand w)
  | .uop18 w => decodeMicro w

/-! ## The encoder (R41, R43, R45) -/

/-- The word of an instruction; the unused fields of NOP, SEND and SETSYM, which the block ignores (R44), are
written as zeros, as R46's examples do. -/
def encode : Instr → CodeWord
  | .nop => .cmd66 (0#2 ++ 0#8 ++ 0#56)
  | .send frame => .cmd66 (1#2 ++ 0#8 ++ frame)
  | .transmit sync frame => .cmd66 (2#2 ++ sync ++ frame)
  | .setsym imm => .cmd66 (3#2 ++ 0#48 ++ imm)
  | .hold d => .uop18 (0#2 ++ d)
  | .setLevel l => .uop18 (1#2 ++ 0#15 ++ BitVec.ofBool l)
  | .toggle => .uop18 (2#2 ++ 0#16)

/-! ## Words as the opcode table numbers their bits -/

/-- The format a row of `nbits` bits is in: UOP18 (18 bits, 24 in whole bytes) or CMD66 (66 bits, 72). -/
def isMicroRow (nbits : Nat) : Bool := decide (nbits ≤ 32)

/-- The word whose bits are `w`, bit 0 the least significant; the word is presented whole on its port or latch, so
there is no byte order to apply. A bit above the word's width is refused by name. -/
def codeWord (nbits w : Nat) : Except DecodeError CodeWord :=
  if isMicroRow nbits then
    if w < 2 ^ 18 then .ok (.uop18 (BitVec.ofNat 18 w)) else .error .bitsAboveWord
  else
    if w < 2 ^ 66 then .ok (.cmd66 (BitVec.ofNat 66 w)) else .error .bitsAboveWord

/-- The instruction the decoder reads from a row's word, none where it refuses. -/
def decodeTableWord (nbits w : Nat) : Option Instr :=
  match codeWord nbits w with
  | .error _ => none
  | .ok c =>
    match decode c with
    | .error _ => none
    | .ok i => some i

end Sys2Proof
end

