-- ==== Sys2Proof/Machine/State.lean ====
section
/-!
DEFINITION. The state of the block as plain data: the ten elements of R10, and three fields of the model's own
(`inputs`, `microProg`, `trace`: notes/assumptions 1, 2, 3). Its phases, micro-operations, port inputs, and the
reasons a step can stop.
-/

namespace Sys2Proof.Machine

/-- The eleven values of PHASE, the sequencer's position (R16, R91). Their numbers are `Phase.code`. -/
inductive Phase where
  | idle | wakeHi | wakeLo | wakeLo2 | syncHi | syncLo | startHi | startLo | dataA | dataB | silence
  deriving DecidableEq, Repr

/-- The Bit Timer's three micro-operations (R45, R51 to R53), as the sequencer issues them. -/
inductive MicroOp where
  | hold (d : Duration)
  | setLevel (l : Level)
  | toggle
  deriving DecidableEq, Repr

/-- The input ports at one tick (R19, R90). -/
structure PortIn where
  /-- reset request -/
  rst : Bool
  /-- the host presents a command this tick -/
  cmdValid : Bool
  /-- the command word -/
  cmd : CmdWord
  deriving DecidableEq, Repr

/-- Why the machine stops with a fault. The spec's own set of exceptions is empty (R110). -/
inductive Fault where
  /-- Raised by the meaning of HOLD when its operand is 0, on a word offered directly to the Bit Timer. SAFE: the
  spec gives HOLD 0 "no meaning" (D3, R45) and the sequencer never issues it from a legal symbol (R56). -/
  | holdOfZeroTicks
  /-- Raised by a tick, `rst` low, at which a micro-program is offered directly to the Bit Timer while PHASE is not
  IDLE (`busy` 1). SAFE: another writer than the Frame Transmitter would share the line during a transmission, "a fault
  whose outcome is undefined, not ... a value" (R130, D16, U1; notes/assumptions/14.md). -/
  | lineSharedWhileBusy
  deriving DecidableEq, Repr

/-- Why a step has no meaning. -/
inductive Refusal where
  /-- Raised by an arm of `exec` for an instruction that has no meaning yet. SAFE. No arm raises it. -/
  | notModelled (mnemonic : String)
  /-- Raised by the Bit Timer for a word offered directly to it that is no micro-operation. SAFE: such words are
  "never generated, so no rule says what they would do" (R45). -/
  | undecodableMicroWord (why : DecodeError)
  deriving DecidableEq, Repr

/-- The state at one tick. -/
structure State where
  /-- LINE, the level driven on the output line (R11) -/
  line : Level
  /-- FRAME, the frame buffer (R12) -/
  frame : FrameWord
  /-- SYNC, the sync count of the transmission in progress (R13) -/
  sync : BitVec 8
  /-- SYMBOL, the symbol duration in µs (R14) -/
  symbol : BitVec 16
  /-- TIMER, the hold counter (R15) -/
  timer : BitVec 16
  /-- PHASE, the sequencer's position (R16) -/
  phase : Phase
  /-- SYNC_IDX, sync pulses already completed (R17) -/
  syncIdx : BitVec 8
  /-- BIT_IDX, the data bit in progress (R17) -/
  bitIdx : BitVec 6
  /-- TX_IDX, the transmission in progress within a burst (R17) -/
  txIdx : BitVec 2
  /-- BURST, 1 when the command in progress is SEND (R17) -/
  burst : Bool
  /-- MODEL'S OWN (notes/assumptions/1.md): the port inputs of this tick and the following ones, this tick's first;
  where the list ends the host presents nothing and holds `rst` low. -/
  inputs : List PortIn
  /-- MODEL'S OWN (notes/assumptions/2.md; to a busy block it is a fault, 14.md): a micro-program offered to
  the Bit Timer directly (R50), the words still
  to execute; `none` in the block as the spec describes it, where the sequencer issues every micro-operation. -/
  microProg : Option (List MicroWord)
  /-- MODEL'S OWN (notes/assumptions/3.md): the trace, one segment per HOLD begun since the last reset, oldest first
  (R50, R53). -/
  trace : List Seg
  deriving DecidableEq, Repr

/-- The reset state of R24 and R126: all zero, idle, SYMBOL 640; nothing presented, nothing offered, no segment. -/
def State.reset : State where
  line := false
  frame := 0
  sync := 0
  symbol := 640
  timer := 0
  phase := .idle
  syncIdx := 0
  bitIdx := 0
  txIdx := 0
  burst := false
  inputs := []
  microProg := none
  trace := []

end Sys2Proof.Machine
end

