-- ==== Sys2Proof/Machine/Operands.lean ====
section
/-!
DEFINITION. What the operations read: bytes and data bits of the frame (R30 to R32), the durations that scale with
the symbol (R6, R62, R63), the legal range of a symbol (R14), and the numbers of the phases (R91).
-/

namespace Sys2Proof.Machine

/-- `FRAME.B[k]`, byte `k` in 0..6: byte 0 is bits 55:48, byte 6 is bits 7:0 (R12, R31, R42). -/
def frameByte (frame : FrameWord) (k : Nat) : BitVec 8 := frame.extractLsb' (48 - 8 * k) 8

/-- `FrameBit(i)`, `i` in 0..55: `(FRAME.B[i div 8] >> (7 - (i mod 8)))[0]` (R32). -/
def frameBit (frame : FrameWord) (i : Nat) : Bool := (frameByte frame (i / 8) >>> (7 - i % 8)).getLsbD 0

/-- The duration of each half of a sync pulse, `4 x SYMBOL`, computed in 16 bits (R56, R62). -/
def syncHold (symbol : BitVec 16) : Duration := BitVec.ofNat 16 syncMult * symbol

/-- The values SETSYM may store: 1..16383 (R14, R83). -/
def symbolLegal (imm : BitVec 16) : Bool := decide (symbolMin ≤ imm.toNat) && decide (imm.toNat ≤ symbolMax)

/-- The number of a phase (R16, R91); values 11..15 are never reached. -/
def Phase.code : Phase → BitVec 4
  | .idle => 0
  | .wakeHi => 1
  | .wakeLo => 2
  | .wakeLo2 => 3
  | .syncHi => 4
  | .syncLo => 5
  | .startHi => 6
  | .startLo => 7
  | .dataA => 8
  | .dataB => 9
  | .silence => 10

end Sys2Proof.Machine
end

