-- ==== Sys2Proof/Machine/Flags.lean ====
section
/-!
DEFINITION. "The block has no flag register and no condition codes" (R20). Two conditions steer the sequencer, both
computed when needed and never stored.
-/

namespace Sys2Proof.Machine

/-- The wake condition `WAKE = (SYNC == 2)`, on the sync count of the transmission that begins (R20, R61, R93). -/
def wake (n : BitVec 8) : Bool := n == syncFirst

/-- The level of the first half of data bit `i`, `NOT FrameBit(i)`: the data-bit condition (R20, R64). -/
def firstHalfLevel (frame : FrameWord) (i : Nat) : Level := !frameBit frame i

end Sys2Proof.Machine
end

