-- ==== Sys2Proof/Machine/Ops.lean ====
section
/-!
DEFINITION. The named operations over the state that the meanings and the sequencer share: sampling the port, the
three micro-operations' effects, the frame latch, entering a phase, `begin_tx`, returning to idle, and reset.
There is no exception to take and none to return from (R110, R116); reset, the one event that takes the block out of
its sequence (R115), is `applyReset`.
-/

namespace Sys2Proof.Machine

/-! ## The port (R19, R40) -/

/-- What the host drives where `inputs` has no entry: nothing presented, `rst` low (notes/assumptions/1.md). -/
def PortIn.quiet : PortIn where
  rst := false
  cmdValid := false
  cmd := 0

/-- The port inputs of this tick. -/
def State.port (s : State) : PortIn :=
  match s.inputs with
  | [] => .quiet
  | p :: _ => p

/-- Past this tick's port inputs: "Inputs are sampled once per tick" (R19). -/
def State.advance (s : State) : State := { s with inputs := s.inputs.tail }

/-! ## Reset (R108, R115, R125) -/

/-- The reset state, whatever the state was: nothing is saved. The host's later inputs are not the block's. -/
def applyReset (s : State) : State := { State.reset with inputs := s.inputs }

/-! ## The micro-operations' effects (R51 to R53) -/

/-- `LINE <- l`. -/
def opSetLevel (l : Level) (s : State) : State := { s with line := l }

/-- `LINE <- NOT LINE`: the register is read, not the pad and not the frame bit (R52, D13). -/
def opToggle (s : State) : State := { s with line := !s.line }

/-- A HOLD begins: `TIMER <- d`, and the trace gains the segment `(LINE, d)`. LINE is not written (R53). -/
def opHold (d : Duration) (s : State) : State :=
  { s with timer := d, trace := s.trace ++ [{ level := s.line, ticks := d.toNat }] }

/-- A tick of a hold that goes on: `TIMER <- TIMER - 1`, nothing else (R94). -/
def opCountDown (s : State) : State := { s with timer := s.timer - 1 }

/-- The effect of one micro-operation issued by the sequencer. -/
def issueOne (m : MicroOp) (s : State) : State :=
  match m with
  | .hold d => opHold d s
  | .setLevel l => opSetLevel l s
  | .toggle => opToggle s

/-- A list of micro-operations issued at one tick boundary, in order (R50). -/
def issue : List MicroOp → State → State
  | [], s => s
  | m :: ms, s => issue ms (issueOne m s)

/-! ## The frame latch (R34) -/

/-- What a command latches at acceptance: `FRAME`, `BURST`, `TX_IDX <- 0`, `SYNC` (R80, R85, R92). -/
def opLatch (frame : FrameWord) (burst : Bool) (sync : BitVec 8) (s : State) : State :=
  { s with frame := frame, burst := burst, txIdx := 0, sync := sync }

/-! ## Moving the sequencer (R91, R93) -/

/-- Enter a phase: `PHASE <- p` together with the micro-operations up to and including the phase's HOLD. -/
def enter (p : Phase) (ops : List MicroOp) (s : State) : State := issue ops { s with phase := p }

/-- Enter SYNC_HI for sync pulse `k` (R62). -/
def enterSyncHi (k : BitVec 8) (s : State) : State :=
  enter .syncHi [.setLevel true, .hold (syncHold s.symbol)] { s with syncIdx := k }

/-- Enter START_HI (R63). -/
def enterStartHi (s : State) : State := enter .startHi [.setLevel true, .hold tStartHi] s

/-- Enter DATA_A of data bit `i` (R64). -/
def enterDataA (i : BitVec 6) (s : State) : State :=
  enter .dataA [.setLevel (firstHalfLevel s.frame i.toNat), .hold s.symbol] { s with bitIdx := i }

/-- `begin_tx(n)`: select the first hold of a transmission whose sync count is `n` (R93). -/
def beginTx (n : BitVec 8) (s : State) : State :=
  if wake n then enter .wakeHi [.setLevel true, .hold tWakeHi] s
  else if n ≠ 0 then enterSyncHi 0 s
  else enterStartHi s

/-- `PHASE <- IDLE ; TIMER <- 0`; LINE and the loop registers keep their values (R104). -/
def opIdle (s : State) : State := { s with phase := .idle, timer := 0 }

/-- A directly offered micro-program is over: the Bit Timer is at rest (notes/assumptions/2.md). -/
def opMicroDone (s : State) : State := { s with microProg := none, timer := 0 }

end Sys2Proof.Machine
end

