-- ==== Sys2Proof/Machine/BitTimer.lean ====
section
/-!
DEFINITION. The meanings of the Bit Timer's micro-operations HOLD, SET_LEVEL and TOGGLE (40_bit_timer.md R51 to R53).
-/

namespace Sys2Proof.Machine

/-- HOLD d (R53): the hold begins; the step function then lets it occupy exactly `d` ticks (R94). `d = 0` has no
meaning (D3) and faults. -/
def execHold (d : Duration) (s : State) : Host.Outcome State Fault Refusal :=
  if d = 0 then .fault .holdOfZeroTicks else .next (opHold d s)

/-- SET_LEVEL l (R51). -/
def execSetLevel (l : Level) (s : State) : Host.Outcome State Fault Refusal := .next (opSetLevel l s)

/-- TOGGLE (R52). -/
def execToggle (s : State) : Host.Outcome State Fault Refusal := .next (opToggle s)

end Sys2Proof.Machine
end

