-- ==== Sys2Proof/Machine/Commands.lean ====
section
/-!
DEFINITION. The meanings of the host commands: what each does at the tick boundary of its acceptance
(42_send_config.md R80, R83 to R85; 43_sequencer_fsm.md R92). The handshake that decides whether a presented command
is accepted is `acceptCommand` in Machine/Fetch.lean.
-/

namespace Sys2Proof.Machine

/-- NOP (R84): changes no state. -/
def execNop (s : State) : Host.Outcome State Fault Refusal := .next s

/-- SEND frame (R80, R92): latch, then `begin_tx(2)`. The two repeats follow in the sequencer (R104). -/
def execSend (frame : FrameWord) (s : State) : Host.Outcome State Fault Refusal :=
  .next (beginTx syncFirst (opLatch frame true syncFirst s))

/-- TRANSMIT n, frame as a command (R85, R92): latch, then `begin_tx(n)`, for every `n` in 0..255 (R73). -/
def execTransmit (n : BitVec 8) (frame : FrameWord) (s : State) : Host.Outcome State Fault Refusal :=
  .next (beginTx n (opLatch frame false n s))

/-- SETSYM n (R83): a legal value is stored, any other is dropped without a sign. -/
def execSetsym (imm : BitVec 16) (s : State) : Host.Outcome State Fault Refusal :=
  .next (if symbolLegal imm then { s with symbol := imm } else s)

end Sys2Proof.Machine
end

