-- ==== Sys2Proof/Machine/Dispatch.lean ====
section
/-!
DEFINITION. One arm per row of spec/opcode_table.json, each a direct call of its meaning.
-/

namespace Sys2Proof.Machine

def exec (i : Instr) (s : State) : Host.Outcome State Fault Refusal :=
  match i with
  | .nop => Sys2Proof.Machine.execNop s
  | .send frame => Sys2Proof.Machine.execSend frame s
  | .transmit sync frame => Sys2Proof.Machine.execTransmit sync frame s
  | .setsym imm => Sys2Proof.Machine.execSetsym imm s
  | .hold d => Sys2Proof.Machine.execHold d s
  | .setLevel l => Sys2Proof.Machine.execSetLevel l s
  | .toggle => Sys2Proof.Machine.execToggle s

end Sys2Proof.Machine
end

