-- ==== Sys2Proof/Machine/Sequencer.lean ====
section
/-!
DEFINITION. The sequencer's expiry rules, one per phase (43_sequencer_fsm.md R95 to R104), and the hold counter
(R94). Each rule issues the micro-operations that stand before and at the next HOLD of the transmission's
micro-program (41_transmit.md R67).
-/

namespace Sys2Proof.Machine

/-- R95. -/
def expireWakeHi (s : State) : State := enter .wakeLo [.setLevel false, .hold tWakeLo] s

/-- R96: LINE is not written (D19). -/
def expireWakeLo (s : State) : State := enter .wakeLo2 [.hold tWakeLo2] s

/-- R97. -/
def expireWakeLo2 (s : State) : State := enterSyncHi 0 s

/-- R98. -/
def expireSyncHi (s : State) : State := enter .syncLo [.setLevel false, .hold (syncHold s.symbol)] s

/-- R99: the comparison is on natural numbers. -/
def expireSyncLo (s : State) : State :=
  if s.syncIdx.toNat + 1 < s.sync.toNat then enterSyncHi (s.syncIdx + 1) s else enterStartHi s

/-- R100. -/
def expireStartHi (s : State) : State := enter .startLo [.setLevel false, .hold s.symbol] s

/-- R101. -/
def expireStartLo (s : State) : State := enterDataA 0 s

/-- R102: the second half is a TOGGLE of the register. -/
def expireDataA (s : State) : State := enter .dataB [.toggle, .hold s.symbol] s

/-- R103. -/
def expireDataB (s : State) : State :=
  if s.bitIdx.toNat + 1 < nBits then enterDataA (s.bitIdx + 1) s
  else enter .silence [.setLevel false, .hold tSilence] s

/-- R104: the repeat policy. -/
def expireSilence (s : State) : State :=
  if s.burst && decide (s.txIdx.toNat + 1 < nTx) then
    beginTx syncRepeat { s with txIdx := s.txIdx + 1, sync := syncRepeat }
  else opIdle s

/-- The expiry rule of each phase. IDLE has none. -/
def expireOf (p : Phase) (s : State) : State :=
  match p with
  | .idle => s
  | .wakeHi => expireWakeHi s
  | .wakeLo => expireWakeLo s
  | .wakeLo2 => expireWakeLo2 s
  | .syncHi => expireSyncHi s
  | .syncLo => expireSyncLo s
  | .startHi => expireStartHi s
  | .startLo => expireStartLo s
  | .dataA => expireDataA s
  | .dataB => expireDataB s
  | .silence => expireSilence s

/-- The expiry rule of the current phase applies (R94). -/
def expire (s : State) : State := expireOf s.phase s

/-- The hold counter of a busy block (R94): count down while `TIMER > 1`, else the phase expires. -/
def holdCounter (s : State) : State := if 1 < s.timer.toNat then opCountDown s else expire s

end Sys2Proof.Machine
end

