-- ==== Sys2Proof/Machine/Fetch.lean ====
section
/-!
DEFINITION. One tick (R90): sampling the port, the priority of R108, acceptance of a command (R92), the hold counter
of a busy block (R94), and, where a micro-program is offered to the Bit Timer directly, its execution (R50;
notes/assumptions/2.md).
-/

namespace Sys2Proof.Machine

/-- Acceptance in the idle state (R40, R92): a presented command is decoded and has its effect at this boundary. -/
def acceptCommand (p : PortIn) (s : State) : Host.Outcome State Fault Refusal :=
  if p.cmdValid then exec (decodeCommand p.cmd) s else .next s

/-- Whether a micro-operation takes time; SET_LEVEL and TOGGLE take none (R50). -/
def takesTime : Instr → Bool
  | .hold _ => true
  | .nop | .send _ | .transmit _ _ | .setsym _ | .setLevel _ | .toggle => false

/-- Execute a directly offered micro-program from a tick boundary: its words in order, up to and including the first
HOLD, each to completion before the next (R50). Where the words end, the Bit Timer is at rest. `tick` calls
it on an idle block only. -/
def runMicro : List MicroWord → State → Host.Outcome State Fault Refusal
  | [], s => .next (opMicroDone s)
  | w :: ws, s =>
    match decode (.uop18 w) with
    | .error e => .refused (.undecodableMicroWord e)
    | .ok i =>
      match exec i { s with microProg := some ws } with
      | .next t => if takesTime i then .next t else runMicro ws t
      | .fault f => .fault f
      | .refused r => .refused r

/-- A tick of the Bit Timer with a directly offered micro-program: a hold in progress goes on (R53), else the next
words are executed. -/
def microTick (ws : List MicroWord) (s : State) : Host.Outcome State Fault Refusal :=
  if 1 < s.timer.toNat then .next (opCountDown s) else runMicro ws s

/-- The step from one tick to the next (R90). `rst` overrides everything; otherwise an idle block looks at the command
port and a busy one at its hold counter (R108). A micro-program offered directly runs in place of R92 on an idle block
(notes/assumptions/2.md); offered to a busy one it shares the line with the transmission, which is a fault (R130, D16;
notes/assumptions/14.md). -/
def tick (s : State) : Host.Outcome State Fault Refusal :=
  if s.port.rst then .next (applyReset s.advance)
  else
    match s.microProg with
    | some ws => if s.phase = .idle then microTick ws s.advance else .fault .lineSharedWhileBusy
    | none => if s.phase = .idle then acceptCommand s.port s.advance else .next (holdCounter s.advance)

/-- Offer an instruction word at this tick to an idle block with no hold in progress: a command word on the command
port, a micro-operation word to the Bit Timer; `rst` low. The very next tick executes it (notes/assumptions/13.md). -/
def offerWord (s : State) : CodeWord → State
  | .cmd66 w =>
    { s with phase := .idle, timer := 0, microProg := none,
             inputs := { rst := false, cmdValid := true, cmd := w } :: s.inputs.tail }
  | .uop18 w =>
    { s with phase := .idle, timer := 0, microProg := some [w],
             inputs := { s.port with rst := false } :: s.inputs.tail }

end Sys2Proof.Machine
end

