-- ==== Sys2Proof/Machine/Step.lean ====
section
/-!
DEFINITION. The machine's step, one tick (43_sequencer_fsm.md R90), and how an instruction word is offered to it.
-/

namespace Sys2Proof.Machine

/-- `S_(t+1) = step(S_t, in_t)` (R90), with `in_t` the first entry of `inputs`. -/
def step (s : State) : Host.Outcome State Fault Refusal := tick s

/-- `s` with the instruction word `w` of a table row of `nbits` bits presented at this tick. -/
def State.withFetchWord (s : State) (nbits w : Nat) : State :=
  offerWord s (if isMicroRow nbits then .uop18 (BitVec.ofNat 18 w) else .cmd66 (BitVec.ofNat 66 w))

end Sys2Proof.Machine
end

