-- ==== Sys2Proof/Machine/MicroWords.lean ====
section
/-!
DEFINITION. A micro-program as a list of words (R45: "a model may, if it likes, represent a micro-program as a list of
words"), so that a program of micro-operations can be offered to the Bit Timer.
-/

namespace Sys2Proof.Machine

/-- The instruction a micro-operation is. -/
def MicroOp.toInstr : MicroOp → Instr
  | .hold d => .hold d
  | .setLevel l => .setLevel l
  | .toggle => .toggle

/-- A micro-operation's 18-bit word (R45). -/
def microWord : MicroOp → MicroWord
  | .hold d => 0#2 ++ d
  | .setLevel l => 1#2 ++ 0#15 ++ BitVec.ofBool l
  | .toggle => 2#2 ++ 0#16

end Sys2Proof.Machine
end

