-- ==== Sys2Proof/Machine/Observe.lean ====
section
/-!
DEFINITION. What is seen from outside: the outputs at a tick (R18, R105), the state after a number of ticks, and the
waveform of `tx` over a number of ticks.
-/

namespace Sys2Proof.Machine

/-- `tx = LINE`. -/
def State.tx (s : State) : Level := s.line

/-- `busy = (PHASE != IDLE)`. -/
def State.busy (s : State) : Bool := decide (s.phase ≠ .idle)

/-- `cmd_ready = (PHASE == IDLE) AND NOT rst`. -/
def State.cmdReady (s : State) : Bool := decide (s.phase = .idle) && !s.port.rst

/-- The state `k` ticks on, where no step on the way stops. -/
def afterTicks : Nat → State → Option State
  | 0, s => some s
  | k + 1, s =>
    match step s with
    | .next t => afterTicks k t
    | .fault _ => none
    | .refused _ => none

/-- The values of `tx` at `k` ticks, this one first; it ends early where a step stops. -/
def wave : Nat → State → List Level
  | 0, _ => []
  | k + 1, s =>
    s.tx :: match step s with
      | .next t => wave k t
      | .fault _ => []
      | .refused _ => []

/-- The values of `busy` at `k` ticks, this one first. -/
def busyWave : Nat → State → List Bool
  | 0, _ => []
  | k + 1, s =>
    s.busy :: match step s with
      | .next t => busyWave k t
      | .fault _ => []
      | .refused _ => []

end Sys2Proof.Machine
end

