-- ==== Sys2Proof/Machine/Trace.lean ====
section
/-!
DEFINITION. The other description of the block's output, as lists of segments: micro-programs and their traces
(40_bit_timer.md R54, R55), one transmission (41_transmit.md R61 to R70), a burst (42_send_config.md R81, R82).
The step function does not use these; that the two agree is a claim (43_sequencer_fsm.md R106).
-/

namespace Sys2Proof.Machine

/-! ## Micro-programs, traces, waveforms (R54, R55) -/

/-- `run(l, p)`: the final level and the trace of micro-program `p` from level `l` (R54). -/
def run (l : Level) : List MicroOp → Level × List Seg
  | [] => (l, [])
  | .setLevel v :: rest => run v rest
  | .toggle :: rest => run (!l) rest
  | .hold d :: rest => ((run l rest).1, { level := l, ticks := d.toNat } :: (run l rest).2)

/-- `expand(trace)`: the waveform, one level per tick (R55). -/
def expand : List Seg → List Level
  | [] => []
  | g :: rest => List.replicate g.ticks g.level ++ expand rest

/-- `merge(trace)`: each maximal run of equal-level segments as one segment of the summed duration (R55). -/
def merge : List Seg → List Seg
  | [] => []
  | g :: rest =>
    match merge rest with
    | [] => [g]
    | h :: hs => if g.level = h.level then { level := g.level, ticks := g.ticks + h.ticks } :: hs else g :: h :: hs

/-- The duration of a trace in ticks (R50, R55). -/
def traceTicks : List Seg → Nat
  | [] => 0
  | g :: rest => g.ticks + traceTicks rest

/-- The ticks of a trace during which the line is HIGH (R70). -/
def highTicks : List Seg → Nat
  | [] => 0
  | g :: rest => (if g.level then g.ticks else 0) + highTicks rest

/-! ## One transmission (R61 to R67) -/

/-- Phase 1, only when `n == 2` (R61). -/
def wakeProg (n : BitVec 8) : List MicroOp :=
  if wake n then [.setLevel true, .hold tWakeHi, .setLevel false, .hold tWakeLo, .hold tWakeLo2] else []

/-- Phase 2, `n` sync pulses (R62). -/
def syncProg (n : BitVec 8) (symbol : BitVec 16) : List MicroOp :=
  (List.replicate n.toNat
    [.setLevel true, .hold (syncHold symbol), .setLevel false, .hold (syncHold symbol)]).flatten

/-- Phase 3, frame start (R63). -/
def startProg (symbol : BitVec 16) : List MicroOp :=
  [.setLevel true, .hold tStartHi, .setLevel false, .hold symbol]

/-- One data bit (R64). -/
def bitProg (b : Bool) (symbol : BitVec 16) : List MicroOp :=
  [.setLevel (!b), .hold symbol, .toggle, .hold symbol]

/-- Phase 4, the 56 data bits in order (R65). -/
def dataProg (frame : FrameWord) (symbol : BitVec 16) : List MicroOp :=
  (List.range nBits).flatMap fun i => bitProg (frameBit frame i) symbol

/-- Phase 5, trailing silence (R66). -/
def silenceProg : List MicroOp := [.setLevel false, .hold tSilence]

/-- `tx_prog(frame, n, S)` (R67). -/
def txProg (frame : FrameWord) (n : BitVec 8) (symbol : BitVec 16) : List MicroOp :=
  wakeProg n ++ syncProg n symbol ++ startProg symbol ++ dataProg frame symbol ++ silenceProg

/-- The 112 segments of the data phase (R65): segment `2i` is `NOT b(i)`, segment `2i+1` is `b(i)`. -/
def dataTrace (frame : FrameWord) (symbol : Nat) : List Seg :=
  (List.range nBits).flatMap fun i =>
    [{ level := !frameBit frame i, ticks := symbol }, { level := frameBit frame i, ticks := symbol }]

/-- `tx_trace(frame, n, S)` (R67), with `n` and `S` as numbers. -/
def txTrace (frame : FrameWord) (n symbol : Nat) : List Seg :=
  (if n = syncFirst.toNat then
    [{ level := true, ticks := tWakeHi.toNat }, { level := false, ticks := tWakeLo.toNat },
     { level := false, ticks := tWakeLo2.toNat }]
   else [])
  ++ (List.replicate n
      [{ level := true, ticks := syncMult * symbol }, { level := false, ticks := syncMult * symbol }]).flatten
  ++ [{ level := true, ticks := tStartHi.toNat }, { level := false, ticks := symbol }]
  ++ dataTrace frame symbol
  ++ [{ level := false, ticks := tSilence.toNat }]

/-- `T_tx(n, S)` (R70). -/
def txTicks (n symbol : Nat) : Nat := (if n = 2 then 98980 else 0) + (8 * n + 113) * symbol + 34965

/-- The number of HOLDs of a micro-program (R54, R69). -/
def holds : List MicroOp → Nat
  | [] => 0
  | .hold _ :: rest => holds rest + 1
  | .setLevel _ :: rest => holds rest
  | .toggle :: rest => holds rest

/-- The number of SET_LEVELs of a micro-program (R69). -/
def setLevels : List MicroOp → Nat
  | [] => 0
  | .setLevel _ :: rest => setLevels rest + 1
  | .hold _ :: rest => setLevels rest
  | .toggle :: rest => setLevels rest

/-- The number of TOGGLEs of a micro-program (R69). -/
def toggles : List MicroOp → Nat
  | [] => 0
  | .toggle :: rest => toggles rest + 1
  | .hold _ :: rest => toggles rest
  | .setLevel _ :: rest => toggles rest

/-- The summed durations of a micro-program's HOLDs (R50). -/
def progTicks : List MicroOp → Nat
  | [] => 0
  | .hold d :: rest => d.toNat + progTicks rest
  | .setLevel _ :: rest => progTicks rest
  | .toggle :: rest => progTicks rest

/-! ## A burst (R81, R82) -/

/-- `send_prog(frame, S)` (R81). -/
def sendProg (frame : FrameWord) (symbol : BitVec 16) : List MicroOp :=
  txProg frame syncFirst symbol ++ txProg frame syncRepeat symbol ++ txProg frame syncRepeat symbol

/-- `send_trace(frame, S)` (R81). -/
def sendTrace (frame : FrameWord) (symbol : Nat) : List Seg :=
  txTrace frame syncFirst.toNat symbol ++ txTrace frame syncRepeat.toNat symbol
    ++ txTrace frame syncRepeat.toNat symbol

/-- `T_send(S)` (R82). -/
def sendTicks (symbol : Nat) : Nat := 203875 + 467 * symbol

end Sys2Proof.Machine
end

