-- ==== Sys2Proof/Safety.lean ====
section
/-!
DEFINITION. What counts as a good state and a quiet host, in the terms the claims use: the invariants of R23, the
block driven by its own sequencer, an idle block that is offered a command, and `rst` held low for a time.
-/

namespace Sys2Proof.Machine

/-- The invariants of R23, (a) to (j), on a block driven by its own sequencer. -/
structure State.Inv (s : State) : Prop where
  /-- no micro-program is offered to the Bit Timer directly (the model's own field; no step sets it) -/
  sequencer : s.microProg = none
  /-- (a) -/
  phase_le : s.phase.code.toNat ≤ 10
  /-- (b) and (c) -/
  idle_iff : s.phase = .idle ↔ s.timer = 0
  /-- (d) -/
  symbol_legal : 1 ≤ s.symbol.toNat ∧ s.symbol.toNat ≤ 16383
  /-- (e) -/
  sync_lt : s.phase = .syncHi ∨ s.phase = .syncLo → s.syncIdx.toNat < s.sync.toNat
  /-- (f) -/
  bit_le : s.phase = .dataA ∨ s.phase = .dataB → s.bitIdx.toNat ≤ 55
  /-- (g) -/
  tx_le : s.txIdx.toNat ≤ 2 ∧ (s.burst = false → s.txIdx = 0)
  /-- (h) -/
  wake_sync : s.phase = .wakeHi ∨ s.phase = .wakeLo ∨ s.phase = .wakeLo2 → s.sync = 2
  /-- (i) -/
  burst_sync : s.burst = true → s.phase ≠ .idle → s.sync = if s.txIdx = 0 then 2 else 7
  /-- (j), levels of the phases whose level is fixed -/
  line_high : s.phase = .wakeHi ∨ s.phase = .syncHi ∨ s.phase = .startHi → s.line = true
  /-- (j) -/
  line_low : s.phase = .idle ∨ s.phase = .wakeLo ∨ s.phase = .wakeLo2 ∨ s.phase = .syncLo ∨ s.phase = .startLo
      ∨ s.phase = .silence → s.line = false
  /-- (j), first half of a data bit -/
  line_dataA : s.phase = .dataA → s.line = !frameBit s.frame s.bitIdx.toNat
  /-- (j), second half of a data bit -/
  line_dataB : s.phase = .dataB → s.line = frameBit s.frame s.bitIdx.toNat

/-- `rst` is low at each of the inputs listed in `ps`. -/
def RstLow (ps : List PortIn) : Prop := ∀ p ∈ ps, p.rst = false

/-- An idle block driven by its own sequencer, at a tick with `rst` low at which the host presents the word `w`. -/
structure Presents (s : State) (w : CmdWord) : Prop where
  idle : s.phase = .idle
  sequencer : s.microProg = none
  rst_low : s.port.rst = false
  valid : s.port.cmdValid = true
  word : s.port.cmd = w

end Sys2Proof.Machine
end

