-- ==== Sys2Proof/Certificates/Slice0/Obligations.lean ====
section
/-!
DEFINITION. The statements for the provers. Each docstring says which rule of spec/ it formalises.
-/

open Sys2Proof Sys2Proof.Machine

/-! ## Reset and outputs -/

/-- R24: every element at its reset value, and the outputs that follow. -/
def Obligations.ResetStateValues : Prop :=
  State.reset.line = false ∧ State.reset.frame = 0 ∧ State.reset.sync = 0 ∧ State.reset.symbol = 640
  ∧ State.reset.timer = 0 ∧ State.reset.phase = .idle ∧ State.reset.syncIdx = 0 ∧ State.reset.bitIdx = 0
  ∧ State.reset.txIdx = 0 ∧ State.reset.burst = false
  ∧ State.reset.tx = false ∧ State.reset.busy = false
  ∧ ∀ ps, State.cmdReady { State.reset with inputs := ps } = !({ State.reset with inputs := ps } : State).port.rst

/-- R125: at a tick with `rst` high the next state is the reset state whatever the state and the other inputs are, and
no command is accepted; held high it stays there; then the block is idle, and ready at the first tick with `rst` low.
The state at power-up is the reset state. The ten elements of R10 are meant: the host's later inputs are kept, since
they are not the block's, and of the model's own fields `microProg` and `trace` nothing is said (log entries 2, 3). -/
def Obligations.ResetInputForcesResetState : Prop :=
  (∀ s : State, s.port.rst = true →
    ∃ t, step s = .next t
      ∧ t = { State.reset with inputs := s.inputs.tail, microProg := t.microProg, trace := t.trace }
      ∧ s.cmdReady = false)
  ∧ (∀ (s : State) (ps qs : List PortIn), ps ≠ [] → (∀ p ∈ ps, p.rst = true) → s.inputs = ps ++ qs →
      ∃ t, afterTicks ps.length s = some t
        ∧ t = { State.reset with inputs := qs, microProg := t.microProg, trace := t.trace }
        ∧ t.phase = .idle ∧ (t.port.rst = false → t.cmdReady = true))
  ∧ core.reset = State.reset

/-- R40, R105: a command is accepted, that is decoded and executed at this boundary, exactly when it is presented and
`cmd_ready` is high; otherwise what stands on the port (but `rst`) makes no difference. -/
def Obligations.HandshakeDecidesAcceptance : Prop :=
  ∀ s : State, s.microProg = none →
    s.tx = s.line ∧ (s.busy = true ↔ s.phase ≠ .idle)
    ∧ (s.cmdReady = true ↔ s.phase = .idle ∧ s.port.rst = false)
    ∧ (s.port.cmdValid = true ∧ s.cmdReady = true → step s = exec (decodeCommand s.port.cmd) s.advance)
    ∧ (¬(s.port.cmdValid = true ∧ s.cmdReady = true) →
        ∀ c : CmdWord, ∀ v : Bool, (v = true → s.cmdReady = false) →
          step { s with inputs := { rst := s.port.rst, cmdValid := v, cmd := c } :: s.inputs.tail } = step s)

/-! ## The step and the instruction it runs -/

/-- When an idle block driven by its sequencer is presented a word with `rst` low, its step is `exec` of the decoded
instruction on the state past this tick's inputs (R40, R92). -/
def Obligations.StepRunsPresentedCommand : Prop :=
  ∀ (s : State) (w : CmdWord) (i : Instr), Presents s w → decode (.cmd66 w) = .ok i → step s = exec i s.advance

/-- Where a micro-operation word stands first in a micro-program offered to the Bit Timer of an idle block, no hold is
in progress and `rst` is low, the step is `exec` of the decoded micro-operation; after one that takes no time, the
words that follow are executed at the same boundary (R50). How a word is offered is the model's own choice: log
entry 2. -/
def Obligations.StepRunsOfferedMicroOperation : Prop :=
  ∀ (s : State) (w : MicroWord) (ws : List MicroWord) (i : Instr),
    s.phase = .idle → s.microProg = some (w :: ws) → s.timer.toNat ≤ 1 → s.port.rst = false →
    decode (.uop18 w) = .ok i →
    step s = match exec i { s.advance with microProg := some ws } with
      | .next t => if takesTime i then .next t else runMicro ws t
      | .fault f => .fault f
      | .refused r => .refused r

/-- R130, D16: where another writer than the block's own sequencer, here a micro-program offered directly, would share
the line while `busy` is 1, the step is a fault and no value, unless `rst` is high. That an offer counts as such a
writer, whatever its words, is the model's own choice: log entry 14. -/
def Obligations.OfferToABusyBlockFaults : Prop :=
  ∀ (s : State) (ws : List MicroWord), s.busy = true → s.microProg = some ws →
    step s = if s.port.rst then .next { State.reset with inputs := s.inputs.tail } else .fault .lineSharedWhileBusy

/-- R92: idle and acceptance, in the raw fields of the command word. -/
def Obligations.IdleAcceptance : Prop :=
  (∀ s : State, s.phase = .idle → s.microProg = none → s.port.rst = false →
    (s.port.cmdValid = false → step s = .next s.advance)
    ∧ (s.port.cmdValid = true →
        (s.port.cmd.extractLsb' 64 2 = 0 → step s = .next s.advance)
        ∧ (s.port.cmd.extractLsb' 64 2 = 3 →
            step s = .next (if 1 ≤ (s.port.cmd.extractLsb' 0 16).toNat ∧ (s.port.cmd.extractLsb' 0 16).toNat ≤ 16383
              then { s.advance with symbol := s.port.cmd.extractLsb' 0 16 } else s.advance))
        ∧ (s.port.cmd.extractLsb' 64 2 = 1 →
            step s = .next (beginTx 2
              { s.advance with frame := s.port.cmd.extractLsb' 0 56, burst := true, txIdx := 0, sync := 2 }))
        ∧ (s.port.cmd.extractLsb' 64 2 = 2 →
            step s = .next (beginTx (s.port.cmd.extractLsb' 56 8)
              { s.advance with frame := s.port.cmd.extractLsb' 0 56, burst := false, txIdx := 0,
                               sync := s.port.cmd.extractLsb' 56 8 }))))
  ∧ (∀ (s : State) (p q : PortIn) (ps : List PortIn), s.phase ≠ .idle → s.microProg = none → p.rst = q.rst →
      step { s with inputs := p :: ps } = step { s with inputs := q :: ps })

/-- R93: `begin_tx(n)` selects the first hold of a transmission. The trace gains that hold's segment (R53). -/
def Obligations.BeginTxSelectsFirstHold : Prop :=
  ∀ (n : BitVec 8) (s : State),
    (n = 2 → beginTx n s =
      { s with phase := .wakeHi, line := true, timer := 9415, trace := s.trace ++ [⟨true, 9415⟩] })
    ∧ (n ≠ 2 → n ≠ 0 → beginTx n s =
        { s with phase := .syncHi, line := true, timer := 4 * s.symbol, syncIdx := 0,
                 trace := s.trace ++ [⟨true, (4 * s.symbol).toNat⟩] })
    ∧ (n = 0 → beginTx n s =
        { s with phase := .startHi, line := true, timer := 4550, trace := s.trace ++ [⟨true, 4550⟩] })

/-! ## Each instruction completes -/

/-- R84: every word with `op` 0 is NOP; it changes no state; it can be accepted in the idle state only, and there it
takes the one tick of its acceptance and `busy` stays 0. -/
def Obligations.NopCompletes : Prop :=
  (∀ s : State, exec .nop s = .next s)
  ∧ (∀ w : CmdWord, w.extractLsb' 64 2 = 0 → decodeCommand w = .nop)
  ∧ (∀ s : State, s.phase ≠ .idle → s.cmdReady = false)
  ∧ (∀ (s : State) (w : CmdWord), Presents s w → decodeCommand w = .nop →
      step s = .next s.advance ∧ s.advance.busy = false)

/-- SEND at acceptance (R80, R92, R93): the latch, and the wake-up's first hold begins. -/
def Obligations.SendCompletes : Prop :=
  ∀ (frame : FrameWord) (s : State), exec (.send frame) s = .next
    { s with frame := frame, burst := true, txIdx := 0, sync := 2, phase := .wakeHi, line := true, timer := 9415,
             trace := s.trace ++ [⟨true, 9415⟩] }

/-- TRANSMIT at acceptance (R85, R92, R93), for every sync count: the latch, and the first hold of the transmission. -/
def Obligations.TransmitCompletes : Prop :=
  ∀ (n : BitVec 8) (frame : FrameWord) (s : State), exec (.transmit n frame) s = .next
    (if n = 2 then
      { s with frame := frame, burst := false, txIdx := 0, sync := n, phase := .wakeHi, line := true, timer := 9415,
               trace := s.trace ++ [⟨true, 9415⟩] }
    else if n = 0 then
      { s with frame := frame, burst := false, txIdx := 0, sync := n, phase := .startHi, line := true, timer := 4550,
               trace := s.trace ++ [⟨true, 4550⟩] }
    else
      { s with frame := frame, burst := false, txIdx := 0, sync := n, phase := .syncHi, line := true,
               timer := 4 * s.symbol, syncIdx := 0, trace := s.trace ++ [⟨true, (4 * s.symbol).toNat⟩] })

/-- R83: SETSYM stores a legal value and drops any other; it takes the one tick of its acceptance, the block stays idle
and is ready again. -/
def Obligations.SetsymCompletes : Prop :=
  (∀ (n : BitVec 16) (s : State), exec (.setsym n) s = .next
    (if 1 ≤ n.toNat ∧ n.toNat ≤ 16383 then { s with symbol := n } else s))
  ∧ (∀ (s : State) (w : CmdWord) (n : BitVec 16), Presents s w → decodeCommand w = .setsym n →
      ∃ t, step s = .next t ∧ t = (if 1 ≤ n.toNat ∧ n.toNat ≤ 16383 then { s.advance with symbol := n } else s.advance)
        ∧ t.busy = false ∧ (t.port.rst = false → t.cmdReady = true))

/-- R51: SET_LEVEL (kind 1) writes LINE and nothing else, whatever the line was, and takes no time; writing the level
again changes nothing. -/
def Obligations.SetLevelCompletes : Prop :=
  ∀ (l : Level) (s : State), exec (.setLevel l) s = .next { s with line := l }
    ∧ exec (.setLevel l) { s with line := l } = .next { s with line := l }
    ∧ exec (.setLevel l) { s with line := !s.line } = exec (.setLevel l) s
    ∧ decodeMicro (1#2 ++ 0#15 ++ BitVec.ofBool l) = .ok (.setLevel l) ∧ takesTime (.setLevel l) = false

/-- R52: TOGGLE (kind 2) inverts the register LINE, writes nothing else and takes no time; two of them restore the
level. -/
def Obligations.ToggleCompletes : Prop :=
  ∀ s : State, exec .toggle s = .next { s with line := !s.line }
    ∧ exec .toggle { s with line := !s.line } = .next s
    ∧ decodeMicro (2#2 ++ 0#16) = .ok .toggle ∧ takesTime .toggle = false

/-- R53, at the boundary where the HOLD begins: for `d` in 1..65535, TIMER is loaded, the trace gains `(LINE, d)`, and
nothing else changes. -/
def Obligations.HoldCompletes : Prop :=
  ∀ (d : Duration) (s : State), d ≠ 0 →
    exec (.hold d) s = .next { s with timer := d, trace := s.trace ++ [⟨s.line, d.toNat⟩] }

/-- HOLD 0 "has no meaning" (D3, R45): the model stops with a fault of its own name. The fault is the model's choice,
log entry 5. -/
def Obligations.HoldOfZeroTicksFaults : Prop :=
  ∀ s : State, exec (.hold 0) s = .fault .holdOfZeroTicks

/-- R53: a HOLD executed by the Bit Timer occupies exactly `d` ticks, counting `d, d-1, ..., 1`, with the line at the
level it had, whatever the host presents; only `rst` can end it. The word is offered to an idle block, and how it is
offered is the model's own choice: log entry 2. -/
def Obligations.HoldOccupiesItsTicks : Prop :=
  ∀ (s : State) (w : MicroWord) (ws : List MicroWord) (d : Duration),
    s.phase = .idle → s.microProg = some (w :: ws) → s.timer.toNat ≤ 1 → decode (.uop18 w) = .ok (.hold d) → d ≠ 0 →
    RstLow (s.inputs.take d.toNat) →
    ∃ t, step s = .next t
      ∧ t = { s.advance with microProg := some ws, timer := d, trace := s.trace ++ [⟨s.line, d.toNat⟩] }
      ∧ wave d.toNat t = List.replicate d.toNat s.line
      ∧ ∀ k, k < d.toNat → ∃ u, afterTicks k t = some u ∧ u.timer.toNat = d.toNat - k ∧ u.line = s.line

/-- What each instruction leaves unchanged, where `exec` gives a next state: every element the spec does not name for
it, every byte of the frame buffer but for SEND and TRANSMIT, the host's inputs and the offered micro-program. -/
def Obligations.InstructionsLeaveTheRestUnchanged : Prop :=
  ∀ (i : Instr) (s t : State), exec i s = .next t →
    t.inputs = s.inputs ∧ t.microProg = s.microProg ∧ t.bitIdx = s.bitIdx
    ∧ ((∀ n, i ≠ .setsym n) → t.symbol = s.symbol)
    ∧ ((∀ f, i ≠ .send f) → (∀ n f, i ≠ .transmit n f) →
        (∀ k, k < 7 → frameByte t.frame k = frameByte s.frame k) ∧ t.frame = s.frame ∧ t.sync = s.sync
        ∧ t.syncIdx = s.syncIdx ∧ t.txIdx = s.txIdx ∧ t.burst = s.burst ∧ t.phase = s.phase
        ∧ ((∀ l, i ≠ .setLevel l) → i ≠ .toggle → t.line = s.line)
        ∧ ((∀ d, i ≠ .hold d) → t.timer = s.timer ∧ t.trace = s.trace))
    ∧ (∀ f, i = .send f → t.syncIdx = s.syncIdx)
    ∧ (∀ n f, i = .transmit n f → n = 0 ∨ n = 2 → t.syncIdx = s.syncIdx)

/-! ## The sequencer, rule by rule -/

/-- R94: the hold counter of a busy block counts `d, d-1, ..., 1`, nothing else changing, and then the expiry rule of
the phase applies, so that a phase occupies exactly `d` ticks. -/
def Obligations.HoldCounterOfABusyBlock : Prop :=
  ∀ s : State, s.phase ≠ .idle → s.microProg = none → 1 ≤ s.timer.toNat → RstLow (s.inputs.take s.timer.toNat) →
    (∀ k, k < s.timer.toNat → afterTicks k s =
      some { s with timer := s.timer - BitVec.ofNat 16 k, inputs := s.inputs.drop k })
    ∧ afterTicks s.timer.toNat s = some (expire { s with timer := 1, inputs := s.inputs.drop s.timer.toNat })
    ∧ wave s.timer.toNat s = List.replicate s.timer.toNat s.line

/-- R95, R96, R97: the wake-up's phases expire. The trace gains each hold's segment (R53). -/
def Obligations.WakeUpPhasesExpire : Prop :=
  ∀ s : State, s.microProg = none → s.port.rst = false → s.timer = 1 →
    (s.phase = .wakeHi → step s = .next
      { s.advance with phase := .wakeLo, line := false, timer := 24030, trace := s.trace ++ [⟨false, 24030⟩] })
    ∧ (s.phase = .wakeLo → step s = .next
        { s.advance with phase := .wakeLo2, timer := 65535, trace := s.trace ++ [⟨s.line, 65535⟩] })
    ∧ (s.phase = .wakeLo2 → step s = .next
        { s.advance with phase := .syncHi, line := true, timer := 4 * s.symbol, syncIdx := 0,
                         trace := s.trace ++ [⟨true, (4 * s.symbol).toNat⟩] })

/-- R98, R99: the sync phases expire; the loop's comparison is on natural numbers. -/
def Obligations.SyncPhasesExpire : Prop :=
  ∀ s : State, s.microProg = none → s.port.rst = false → s.timer = 1 →
    (s.phase = .syncHi → step s = .next
      { s.advance with phase := .syncLo, line := false, timer := 4 * s.symbol,
                       trace := s.trace ++ [⟨false, (4 * s.symbol).toNat⟩] })
    ∧ (s.phase = .syncLo → s.syncIdx.toNat + 1 < s.sync.toNat → step s = .next
        { s.advance with phase := .syncHi, line := true, timer := 4 * s.symbol, syncIdx := s.syncIdx + 1,
                         trace := s.trace ++ [⟨true, (4 * s.symbol).toNat⟩] })
    ∧ (s.phase = .syncLo → ¬ s.syncIdx.toNat + 1 < s.sync.toNat → step s = .next
        { s.advance with phase := .startHi, line := true, timer := 4550, trace := s.trace ++ [⟨true, 4550⟩] })

/-- R100, R101: the frame-start phases expire; the first data bit is bit 7 of byte 0. -/
def Obligations.FrameStartPhasesExpire : Prop :=
  ∀ s : State, s.microProg = none → s.port.rst = false → s.timer = 1 →
    (s.phase = .startHi → step s = .next
      { s.advance with phase := .startLo, line := false, timer := s.symbol,
                       trace := s.trace ++ [⟨false, s.symbol.toNat⟩] })
    ∧ (s.phase = .startLo → step s = .next
        { s.advance with phase := .dataA, bitIdx := 0, line := !(frameByte s.frame 0).getLsbD 7, timer := s.symbol,
                         trace := s.trace ++ [⟨!(frameByte s.frame 0).getLsbD 7, s.symbol.toNat⟩] })

/-- R102, R103: the data phases expire; the second half inverts the register LINE. -/
def Obligations.DataPhasesExpire : Prop :=
  ∀ s : State, s.microProg = none → s.port.rst = false → s.timer = 1 →
    (s.phase = .dataA → step s = .next
      { s.advance with phase := .dataB, line := !s.line, timer := s.symbol,
                       trace := s.trace ++ [⟨!s.line, s.symbol.toNat⟩] })
    ∧ (s.phase = .dataB → s.bitIdx.toNat < 55 → step s = .next
        { s.advance with phase := .dataA, bitIdx := s.bitIdx + 1, line := !frameBit s.frame (s.bitIdx.toNat + 1),
                         timer := s.symbol,
                         trace := s.trace ++ [⟨!frameBit s.frame (s.bitIdx.toNat + 1), s.symbol.toNat⟩] })
    ∧ (s.phase = .dataB → 55 ≤ s.bitIdx.toNat → step s = .next
        { s.advance with phase := .silence, line := false, timer := 30415, trace := s.trace ++ [⟨false, 30415⟩] })

/-- R104: the silence expires; the repeat policy of a burst, or the return to idle. -/
def Obligations.SilenceExpires : Prop :=
  ∀ s : State, s.microProg = none → s.port.rst = false → s.timer = 1 → s.phase = .silence →
    (s.burst = true ∧ s.txIdx.toNat < 2 → step s = .next
      { s.advance with txIdx := s.txIdx + 1, sync := 7, phase := .syncHi, line := true, timer := 4 * s.symbol,
                       syncIdx := 0, trace := s.trace ++ [⟨true, (4 * s.symbol).toNat⟩] })
    ∧ (¬(s.burst = true ∧ s.txIdx.toNat < 2) → step s = .next { s.advance with phase := .idle, timer := 0 })

/-! ## Invariants and whole-machine rules -/

/-- The invariants of R23 hold at reset. -/
def Obligations.ResetMeetsTheInvariants : Prop := State.reset.Inv

/-- R23: every step from a state that meets the invariants gives a state that meets them. -/
def Obligations.EveryStepKeepsTheInvariants : Prop :=
  ∀ s t : State, s.Inv → step s = .next t → t.Inv

/-- R110: on a block driven by its own sequencer no step stops, whatever the state and the inputs; every command word
is legal and executes in every state. -/
def Obligations.NoStepOfTheBlockStops : Prop :=
  (∀ s : State, s.microProg = none → ∃ t, step s = .next t)
  ∧ (∀ (w : CmdWord) (s : State), ∃ t, exec (decodeCommand w) s = .next t)

/-- R14, R34: while the block is busy and `rst` is low, no input changes FRAME or SYMBOL. -/
def Obligations.BusyBlockKeepsFrameAndSymbol : Prop :=
  ∀ s : State, s.phase ≠ .idle → s.microProg = none → s.port.rst = false →
    ∃ t, step s = .next t ∧ t.symbol = s.symbol ∧ t.frame = s.frame
      ∧ ∀ k, k < 7 → frameByte t.frame k = frameByte s.frame k

/-- R57: with `rst` low an edge occurs only at a boundary where a HOLD begins, and that HOLD holds the new level. -/
def Obligations.EdgesOnlyWhereAHoldBegins : Prop :=
  ∀ s t : State, s.microProg = none → s.port.rst = false → step s = .next t → t.line ≠ s.line →
    t.trace = s.trace ++ [⟨t.line, t.timer.toNat⟩]

/-! ## Words -/

/-- Decoding the word of a well-formed instruction gives the instruction back, with every operand at every value. -/
def Obligations.DecodeOfEncode : Prop :=
  ∀ i : Instr, WellFormed i = true → decode (encode i) = .ok i

/-- R43: the command decoder is total; each of the four rows is selected exactly by `w AND mask == match`, with the
fields the row uses. -/
def Obligations.EveryCommandWordSelectsOneRow : Prop :=
  ∀ w : CmdWord,
    (w &&& 0x30000000000000000#66 = 0x00000000000000000#66 ↔ decodeCommand w = .nop)
    ∧ (w &&& 0x30000000000000000#66 = 0x10000000000000000#66 ↔ decodeCommand w = .send (w.extractLsb' 0 56))
    ∧ (w &&& 0x30000000000000000#66 = 0x20000000000000000#66 ↔ 
        decodeCommand w = .transmit (w.extractLsb' 56 8) (w.extractLsb' 0 56))
    ∧ (w &&& 0x30000000000000000#66 = 0x30000000000000000#66 ↔ decodeCommand w = .setsym (w.extractLsb' 0 16))

/-- R44: unused fields are ignored: NOP's bits 63:0, SEND's 63:56, SETSYM's 63:16; TRANSMIT uses every bit. -/
def Obligations.UnusedFieldsAreIgnored : Prop :=
  (∀ x : BitVec 64, decodeCommand (0#2 ++ x) = .nop)
  ∧ (∀ (x : BitVec 8) (f : FrameWord), decodeCommand (1#2 ++ x ++ f) = .send f)
  ∧ (∀ (x : BitVec 48) (n : BitVec 16), decodeCommand (3#2 ++ x ++ n) = .setsym n)
  ∧ (∀ w v : CmdWord, decodeCommand w = decodeCommand v → cmdOp w = 2 → w = v)

/-- R45: the micro-operation words; the words no rule gives a meaning are refused by name (the refusal is the model's
choice, log entry 5). -/
def Obligations.MicroOperationWords : Prop :=
  (∀ d : Duration, decodeMicro (0#2 ++ d) = .ok (.hold d))
  ∧ (∀ l : Bool, decodeMicro (1#2 ++ 0#15 ++ BitVec.ofBool l) = .ok (.setLevel l))
  ∧ decodeMicro (2#2 ++ 0#16) = .ok .toggle
  ∧ (∀ (a : BitVec 15) (l : Bool), a ≠ 0 →
      decodeMicro (1#2 ++ a ++ BitVec.ofBool l) = .error .setLevelHighBits)
  ∧ (∀ a : BitVec 16, a ≠ 0 → decodeMicro (2#2 ++ a) = .error .toggleArgument)
  ∧ (∀ a : BitVec 16, decodeMicro (3#2 ++ a) = .error .microKindThree)

/-- R46 and 95_test_vectors.md C1 to C15: some words written out. -/
def Obligations.WordsOfTheTestVectors : Prop :=
  decodeCommand 0x00000000000000000#66 = .nop
  ∧ decodeCommand 0x100A71A2B3C4D5E6F#66 = .send 0xA71A2B3C4D5E6F#56
  ∧ decodeCommand 0x207A71A2B3C4D5E6F#66 = .transmit 7 0xA71A2B3C4D5E6F#56
  ∧ decodeCommand 0x2FF00000000000000#66 = .transmit 255 0
  ∧ decodeCommand 0x30000000000000280#66 = .setsym 640
  ∧ decodeCommand 0x1FFA71A2B3C4D5E6F#66 = .send 0xA71A2B3C4D5E6F#56
  ∧ decodeCommand 0x3ABCDEF0123450280#66 = .setsym 640
  ∧ decodeCommand 0x0FFFFFFFFFFFFFFFF#66 = .nop
  ∧ decodeMicro 0x10001#18 = .ok (.setLevel true)
  ∧ decodeMicro 0x20000#18 = .ok .toggle
  ∧ decodeMicro 0x024C7#18 = .ok (.hold 9415)

/-! ## The frame buffer -/

/-- R32: `FrameBit(i)` is bit `7 - (i mod 8)` of byte `i div 8`, and equally `FRAME[55 - i]`. -/
def Obligations.FrameBitHasTwoForms : Prop :=
  ∀ (frame : FrameWord) (i : Nat), i < 56 →
    frameBit frame i = (frameByte frame (i / 8) >>> (7 - i % 8)).getLsbD 0
    ∧ frameBit frame i = frame.getLsbD (55 - i)

/-- R12, R42: byte `k` of the frame is `cmd[55 - 8k : 48 - 8k]`, and the seven bytes are the 56-bit value. -/
def Obligations.FrameBytesOfACommand : Prop :=
  (∀ (w : CmdWord) (k : Nat), k < 7 → frameByte (cmdFrame w) k = w.extractLsb' (48 - 8 * k) 8)
  ∧ ∀ frame : FrameWord, frameByte frame 0 ++ frameByte frame 1 ++ frameByte frame 2 ++ frameByte frame 3
      ++ frameByte frame 4 ++ frameByte frame 5 ++ frameByte frame 6 = frame

/-! ## Micro-programs, traces, waveforms -/

/-- R54: from any level a micro-program's trace has one segment per HOLD, and lasts the sum of their durations. -/
def Obligations.TraceOfAMicroProgram : Prop :=
  ∀ (l : Level) (p : List MicroOp),
    (run l p).2.length = holds p ∧ traceTicks (run l p).2 = progTicks p

/-- R55: `expand` of a trace has the trace's duration; `merge` leaves the waveform as it is and no two neighbouring
segments of it have the same level. -/
def Obligations.MergeKeepsTheWaveform : Prop :=
  ∀ t : List Seg, (expand t).length = traceTicks t ∧ expand (merge t) = expand t
    ∧ (merge t).IsChain (fun g h => g.level ≠ h.level)

/-- R50, R54: a micro-program of well-formed micro-operations offered to the Bit Timer of an idle block drives the
waveform of its trace
and leaves the level and the trace `run` gives, in exactly the sum of its durations. How the program is offered, and
the tick at which it is offered, are the model's own choice: log entry 2. -/
def Obligations.BitTimerRunsAMicroProgram : Prop :=
  ∀ (s : State) (p : List MicroOp),
    (∀ m ∈ p, WellFormed m.toInstr = true) → s.phase = .idle → s.microProg = some (p.map microWord) →
    s.timer.toNat ≤ 1 →
    RstLow (s.inputs.take (progTicks p + 1)) →
    ∃ t, step s = .next t
      ∧ wave (progTicks p) t = expand (run s.line p).2
      ∧ afterTicks (progTicks p) t = some
          { s with line := (run s.line p).1, trace := s.trace ++ (run s.line p).2, microProg := none, timer := 0,
                   inputs := s.inputs.drop (progTicks p + 1) }

/-- R67: the micro-program of a transmission; from any level it has the trace the rule gives, and ends LOW. -/
def Obligations.TransmissionTrace : Prop :=
  ∀ (l : Level) (frame : FrameWord) (n : BitVec 8) (symbol : BitVec 16),
    1 ≤ symbol.toNat → symbol.toNat ≤ 16383 →
    txProg frame n symbol =
      ((if n = 2 then [.setLevel true, .hold 9415, .setLevel false, .hold 24030, .hold 65535] else [] : List MicroOp)
      ++ ((List.replicate n.toNat
          [.setLevel true, .hold (4 * symbol), .setLevel false, .hold (4 * symbol)]).flatten : List MicroOp)
      ++ ([.setLevel true, .hold 4550, .setLevel false, .hold symbol] : List MicroOp)
      ++ ((List.range 56).flatMap fun i =>
          ([.setLevel (!frameBit frame i), .hold symbol, .toggle, .hold symbol] : List MicroOp))
      ++ ([.setLevel false, .hold 30415] : List MicroOp))
    ∧ run l (txProg frame n symbol) = (false,
      (if n = 2 then [⟨true, 9415⟩, ⟨false, 24030⟩, ⟨false, 65535⟩] else [])
      ++ (List.replicate n.toNat [⟨true, 4 * symbol.toNat⟩, ⟨false, 4 * symbol.toNat⟩]).flatten
      ++ [⟨true, 4550⟩, ⟨false, symbol.toNat⟩]
      ++ ((List.range 56).flatMap fun i =>
          [⟨!frameBit frame i, symbol.toNat⟩, ⟨frameBit frame i, symbol.toNat⟩])
      ++ [⟨false, 30415⟩])
    ∧ (run l (txProg frame n symbol)).2 = txTrace frame n.toNat symbol.toNat

/-- R69: the numbers of HOLDs, SET_LEVELs and TOGGLEs of one transmission. -/
def Obligations.CountsOfATransmission : Prop :=
  ∀ (frame : FrameWord) (n : BitVec 8) (symbol : BitVec 16),
    holds (txProg frame n symbol) = 115 + 2 * n.toNat + (if n = 2 then 3 else 0)
    ∧ (txTrace frame n.toNat symbol.toNat).length = 115 + 2 * n.toNat + (if n = 2 then 3 else 0)
    ∧ setLevels (txProg frame n symbol) = (if n = 2 then 2 else 0) + 2 * n.toNat + 2 + 56 + 1
    ∧ toggles (txProg frame n symbol) = 56

/-- R70: the duration of one transmission, and the ticks for which the line is HIGH, whatever the frame. -/
def Obligations.DurationOfATransmission : Prop :=
  (∀ (frame : FrameWord) (n symbol : Nat),
    traceTicks (txTrace frame n symbol)
      = (if n = 2 then 98980 else 0) + 8 * n * symbol + (4550 + symbol) + 112 * symbol + 30415
    ∧ traceTicks (txTrace frame n symbol) = (if n = 2 then 98980 else 0) + (8 * n + 113) * symbol + 34965
    ∧ traceTicks (txTrace frame n symbol) = txTicks n symbol
    ∧ highTicks (txTrace frame n symbol) = (if n = 2 then 9415 else 0) + 4 * n * symbol + 4550 + 56 * symbol)
  ∧ txTicks 2 640 = 216505 ∧ txTicks 7 640 = 143125

/-- R68: in the data phase the second half of every bit has the opposite level of the first and is the bit's value;
there is an edge between bit `i` and bit `i+1` exactly when the two are equal; no run of equal level is longer than two
symbols. -/
def Obligations.ToggleSemanticsOfTheDataPhase : Prop :=
  ∀ (frame : FrameWord) (symbol : Nat),
    (∀ i, i < 56 → ∃ a b : Seg, (dataTrace frame symbol)[2 * i]? = some a ∧ (dataTrace frame symbol)[2 * i + 1]? = some b
      ∧ b.level = !a.level ∧ b.level = frameBit frame i ∧ a.ticks = symbol ∧ b.ticks = symbol)
    ∧ (∀ i, i < 55 → ∃ b c : Seg, (dataTrace frame symbol)[2 * i + 1]? = some b
        ∧ (dataTrace frame symbol)[2 * (i + 1)]? = some c
        ∧ (b.level ≠ c.level ↔ frameBit frame i = frameBit frame (i + 1)))
    ∧ (∀ g ∈ merge (dataTrace frame symbol), g.ticks ≤ 2 * symbol)

/-- R56: with a legal symbol every HOLD the block issues has a duration in 1..65535. -/
def Obligations.EveryDurationFitsTheHoldCounter : Prop :=
  ∀ (frame : FrameWord) (n symbol : Nat), 1 ≤ symbol → symbol ≤ 16383 →
    ∀ g, g ∈ txTrace frame n symbol ∨ g ∈ sendTrace frame symbol → 1 ≤ g.ticks ∧ g.ticks ≤ 65535

/-- R6: two symbols give traces of one length and the same levels, and at each position either one fixed constant, or
the symbols, or four times the symbols. -/
def Obligations.FixedDurationsDoNotScale : Prop :=
  ∀ (frame : FrameWord) (n a b : Nat),
    List.Forall₂ (fun g h => g.level = h.level
      ∧ ((g.ticks = h.ticks ∧ g.ticks ∈ [9415, 24030, 65535, 4550, 30415])
        ∨ (g.ticks = a ∧ h.ticks = b) ∨ (g.ticks = 4 * a ∧ h.ticks = 4 * b)))
      (txTrace frame n a) (txTrace frame n b)

/-- R81, R82: the burst's micro-program has the burst's trace, its counts and its durations. -/
def Obligations.TotalsOfABurst : Prop :=
  (∀ (l : Level) (frame : FrameWord) (symbol : BitVec 16), 1 ≤ symbol.toNat → symbol.toNat ≤ 16383 →
    run l (sendProg frame symbol) = (false, txTrace frame 2 symbol.toNat ++ txTrace frame 7 symbol.toNat
      ++ txTrace frame 7 symbol.toNat) ∧ toggles (sendProg frame symbol) = 168)
  ∧ (∀ (frame : FrameWord) (symbol : Nat),
      sendTrace frame symbol = txTrace frame 2 symbol ++ txTrace frame 7 symbol ++ txTrace frame 7 symbol
      ∧ (sendTrace frame symbol).length = 380
      ∧ traceTicks (sendTrace frame symbol) = 203875 + 467 * symbol
      ∧ highTicks (sendTrace frame symbol) = 23065 + 232 * symbol)

/-! ## Whole commands -/

/-- R106: the two descriptions agree, for TRANSMIT and for SEND: with `rst` low, the values of `tx` at the ticks after
acceptance are the expanded trace, and the pairs (LINE, loaded TIMER) are the trace. -/
def Obligations.SequencerAgreesWithTheTraces : Prop :=
  (∀ (s : State) (w : CmdWord) (n : BitVec 8) (frame : FrameWord),
    Presents s w → decodeCommand w = .transmit n frame → 1 ≤ s.symbol.toNat → s.symbol.toNat ≤ 16383 →
    RstLow (s.inputs.take (txTicks n.toNat s.symbol.toNat + 1)) →
    ∃ t u, step s = .next t
      ∧ wave (txTicks n.toNat s.symbol.toNat) t = expand (txTrace frame n.toNat s.symbol.toNat)
      ∧ afterTicks (txTicks n.toNat s.symbol.toNat) t = some u
      ∧ u.trace = s.trace ++ txTrace frame n.toNat s.symbol.toNat)
  ∧ (∀ (s : State) (w : CmdWord) (frame : FrameWord),
    Presents s w → decodeCommand w = .send frame → 1 ≤ s.symbol.toNat → s.symbol.toNat ≤ 16383 →
    RstLow (s.inputs.take (sendTicks s.symbol.toNat + 1)) →
    ∃ t u, step s = .next t
      ∧ wave (sendTicks s.symbol.toNat) t = expand (sendTrace frame s.symbol.toNat)
      ∧ afterTicks (sendTicks s.symbol.toNat) t = some u
      ∧ u.trace = s.trace ++ sendTrace frame s.symbol.toNat)

/-- R85: TRANSMIT as a command runs one transmission and no repeat, lasts `T_tx(n, S)`, and leaves the block idle. -/
def Obligations.TransmitRunsToIdle : Prop :=
  ∀ (s : State) (w : CmdWord) (n : BitVec 8) (frame : FrameWord),
    Presents s w → decodeCommand w = .transmit n frame → 1 ≤ s.symbol.toNat → s.symbol.toNat ≤ 16383 →
    RstLow (s.inputs.take (txTicks n.toNat s.symbol.toNat + 1)) →
    afterTicks (txTicks n.toNat s.symbol.toNat + 1) s = some
      { s with line := false, frame := frame, sync := n, timer := 0, phase := .idle,
               syncIdx := if n = 0 then s.syncIdx else n - 1, bitIdx := 55, txIdx := 0, burst := false,
               inputs := s.inputs.drop (txTicks n.toNat s.symbol.toNat + 1),
               trace := s.trace ++ txTrace frame n.toNat s.symbol.toNat }

/-- R80: SEND runs the three transmissions with sync counts 2, 7, 7 and nothing between them, and leaves the block
idle. -/
def Obligations.SendRunsToIdle : Prop :=
  ∀ (s : State) (w : CmdWord) (frame : FrameWord),
    Presents s w → decodeCommand w = .send frame → 1 ≤ s.symbol.toNat → s.symbol.toNat ≤ 16383 →
    RstLow (s.inputs.take (sendTicks s.symbol.toNat + 1)) →
    afterTicks (sendTicks s.symbol.toNat + 1) s = some
      { s with line := false, frame := frame, sync := 7, timer := 0, phase := .idle, syncIdx := 6, bitIdx := 55,
               txIdx := 2, burst := true, inputs := s.inputs.drop (sendTicks s.symbol.toNat + 1),
               trace := s.trace ++ (txTrace frame 2 s.symbol.toNat ++ txTrace frame 7 s.symbol.toNat
                 ++ txTrace frame 7 s.symbol.toNat) }

/-- R107, R139: a command accepted at tick `a` whose trace lasts `T` has `tx` LOW at tick `a` (in a state that meets the
invariants), HIGH at tick `a+1`, `busy` at exactly the ticks `a+1 .. a+T`, and the block idle with LINE, TIMER and
`busy` 0 at tick `a+T+1`. -/
def Obligations.LatencyAndSpacing : Prop :=
  ∀ (s : State) (w : CmdWord) (total : Nat), s.Inv → Presents s w →
    ((∃ n frame, decodeCommand w = .transmit n frame ∧ total = txTicks n.toNat s.symbol.toNat)
      ∨ (∃ frame, decodeCommand w = .send frame ∧ total = sendTicks s.symbol.toNat)) →
    RstLow (s.inputs.take (total + 1)) →
    s.tx = false ∧ s.busy = false
    ∧ ∃ t u, step s = .next t ∧ t.tx = true ∧ busyWave total t = List.replicate total true
      ∧ afterTicks total t = some u ∧ u.phase = .idle ∧ u.line = false ∧ u.timer = 0 ∧ u.busy = false

/-- R127: a reset at tick `a + k`, `1 ≤ k ≤ T`, while a command accepted at tick `a` runs: the waveform is the command's
first `k` ticks, and the state after that tick is the reset state. R127 and R115 speak of the ten elements of R10; that
the reset also empties the field `trace` is the model's own choice, log entry 3, and that `microProg` is `none` after
it is log entry 2's. -/
def Obligations.ResetCutsTheWaveform : Prop :=
  ∀ (s : State) (w : CmdWord) (trace : List Seg) (k : Nat) (r : PortIn), Presents s w →
    1 ≤ s.symbol.toNat → s.symbol.toNat ≤ 16383 →
    ((∃ n frame, decodeCommand w = .transmit n frame ∧ trace = txTrace frame n.toNat s.symbol.toNat)
      ∨ (∃ frame, decodeCommand w = .send frame ∧ trace = sendTrace frame s.symbol.toNat)) →
    1 ≤ k → k ≤ traceTicks trace → RstLow (s.inputs.take k) → s.inputs[k]? = some r → r.rst = true →
    ∃ t u, step s = .next t ∧ wave k t = (expand trace).take k
      ∧ afterTicks k t = some u ∧ u = { State.reset with inputs := s.inputs.drop (k + 1) } ∧ u.tx = false

/-- R86: three TRANSMITs with sync counts 2, 7, 7 of one frame, each presented at the first tick it can be accepted,
drive the segments of SEND with one idle LOW tick after each of the first two silences. -/
def Obligations.ThreeTransmitsAreNotASend : Prop :=
  ∀ (s : State) (frame : FrameWord) (ps qs rs : List PortIn),
    s.phase = .idle → s.microProg = none → 1 ≤ s.symbol.toNat → s.symbol.toNat ≤ 16383 →
    ps.length = txTicks 2 s.symbol.toNat → qs.length = txTicks 7 s.symbol.toNat →
    RstLow ps → RstLow qs → RstLow (rs.take (txTicks 7 s.symbol.toNat)) →
    s.inputs = { rst := false, cmdValid := true, cmd := 2#2 ++ 2#8 ++ frame } :: (ps
      ++ { rst := false, cmdValid := true, cmd := 2#2 ++ 7#8 ++ frame } :: (qs
      ++ { rst := false, cmdValid := true, cmd := 2#2 ++ 7#8 ++ frame } :: rs)) →
    ∃ t u, step s = .next t
      ∧ wave (sendTicks s.symbol.toNat + 2) t
        = expand (txTrace frame 2 s.symbol.toNat) ++ [false] ++ expand (txTrace frame 7 s.symbol.toNat) ++ [false]
          ++ expand (txTrace frame 7 s.symbol.toNat)
      ∧ busyWave (sendTicks s.symbol.toNat + 2) t
        = List.replicate (txTicks 2 s.symbol.toNat) true ++ [false]
          ++ List.replicate (txTicks 7 s.symbol.toNat) true ++ [false]
          ++ List.replicate (txTicks 7 s.symbol.toNat) true
      ∧ afterTicks (sendTicks s.symbol.toNat + 2) t = some u ∧ u.phase = .idle ∧ u.txIdx = 0 ∧ u.burst = false
end

