-- ==== Sys2Proof/Config.lean ====
section
/-!
DEFINITION. What an implementation fixes and the spec leaves open (00_scope.md R5, rows marked OPEN;
93_implementation_defined.md U14). No rule uses either of them, and no definition of the model reads them.
The numbers the spec does fix stand in Sys2Proof/Machine/Params.lean.
-/

namespace Sys2Proof.Config

/-- TX_PIN: which physical pin carries the line, "configured once, not per-call" (R5, R21, D18). OPEN. -/
opaque txPin : Nat

/-- F_CLK: the physical clock frequency in Hz, beneath the 1 µs tick (R5, R7, D1). OPEN. -/
opaque fClk : Nat

end Sys2Proof.Config
end

