-- ==== Sys2Proof/Laws/State.lean ====
section
/-!
SUPPORT. One lemma per field per update of the state, true by unfolding once, so that no later proof unfolds a record
update.
-/

namespace Sys2Proof.Machine

/-! ## advance -/

@[simp] theorem State.advance_line (s : State) : s.advance.line = s.line := rfl
@[simp] theorem State.advance_frame (s : State) : s.advance.frame = s.frame := rfl
@[simp] theorem State.advance_sync (s : State) : s.advance.sync = s.sync := rfl
@[simp] theorem State.advance_symbol (s : State) : s.advance.symbol = s.symbol := rfl
@[simp] theorem State.advance_timer (s : State) : s.advance.timer = s.timer := rfl
@[simp] theorem State.advance_phase (s : State) : s.advance.phase = s.phase := rfl
@[simp] theorem State.advance_syncIdx (s : State) : s.advance.syncIdx = s.syncIdx := rfl
@[simp] theorem State.advance_bitIdx (s : State) : s.advance.bitIdx = s.bitIdx := rfl
@[simp] theorem State.advance_txIdx (s : State) : s.advance.txIdx = s.txIdx := rfl
@[simp] theorem State.advance_burst (s : State) : s.advance.burst = s.burst := rfl
@[simp] theorem State.advance_inputs (s : State) : s.advance.inputs = s.inputs.tail := rfl
@[simp] theorem State.advance_microProg (s : State) : s.advance.microProg = s.microProg := rfl
@[simp] theorem State.advance_trace (s : State) : s.advance.trace = s.trace := rfl

/-! ## opSetLevel -/

@[simp] theorem opSetLevel_line (l : Level) (s : State) : (opSetLevel l s).line = l := rfl
@[simp] theorem opSetLevel_frame (l : Level) (s : State) : (opSetLevel l s).frame = s.frame := rfl
@[simp] theorem opSetLevel_sync (l : Level) (s : State) : (opSetLevel l s).sync = s.sync := rfl
@[simp] theorem opSetLevel_symbol (l : Level) (s : State) : (opSetLevel l s).symbol = s.symbol := rfl
@[simp] theorem opSetLevel_timer (l : Level) (s : State) : (opSetLevel l s).timer = s.timer := rfl
@[simp] theorem opSetLevel_phase (l : Level) (s : State) : (opSetLevel l s).phase = s.phase := rfl
@[simp] theorem opSetLevel_syncIdx (l : Level) (s : State) : (opSetLevel l s).syncIdx = s.syncIdx := rfl
@[simp] theorem opSetLevel_bitIdx (l : Level) (s : State) : (opSetLevel l s).bitIdx = s.bitIdx := rfl
@[simp] theorem opSetLevel_txIdx (l : Level) (s : State) : (opSetLevel l s).txIdx = s.txIdx := rfl
@[simp] theorem opSetLevel_burst (l : Level) (s : State) : (opSetLevel l s).burst = s.burst := rfl
@[simp] theorem opSetLevel_inputs (l : Level) (s : State) : (opSetLevel l s).inputs = s.inputs := rfl
@[simp] theorem opSetLevel_microProg (l : Level) (s : State) : (opSetLevel l s).microProg = s.microProg := rfl
@[simp] theorem opSetLevel_trace (l : Level) (s : State) : (opSetLevel l s).trace = s.trace := rfl

/-! ## opToggle -/

@[simp] theorem opToggle_line (s : State) : (opToggle s).line = !s.line := rfl
@[simp] theorem opToggle_frame (s : State) : (opToggle s).frame = s.frame := rfl
@[simp] theorem opToggle_sync (s : State) : (opToggle s).sync = s.sync := rfl
@[simp] theorem opToggle_symbol (s : State) : (opToggle s).symbol = s.symbol := rfl
@[simp] theorem opToggle_timer (s : State) : (opToggle s).timer = s.timer := rfl
@[simp] theorem opToggle_phase (s : State) : (opToggle s).phase = s.phase := rfl
@[simp] theorem opToggle_syncIdx (s : State) : (opToggle s).syncIdx = s.syncIdx := rfl
@[simp] theorem opToggle_bitIdx (s : State) : (opToggle s).bitIdx = s.bitIdx := rfl
@[simp] theorem opToggle_txIdx (s : State) : (opToggle s).txIdx = s.txIdx := rfl
@[simp] theorem opToggle_burst (s : State) : (opToggle s).burst = s.burst := rfl
@[simp] theorem opToggle_inputs (s : State) : (opToggle s).inputs = s.inputs := rfl
@[simp] theorem opToggle_microProg (s : State) : (opToggle s).microProg = s.microProg := rfl
@[simp] theorem opToggle_trace (s : State) : (opToggle s).trace = s.trace := rfl

/-! ## opHold -/

@[simp] theorem opHold_line (d : Duration) (s : State) : (opHold d s).line = s.line := rfl
@[simp] theorem opHold_frame (d : Duration) (s : State) : (opHold d s).frame = s.frame := rfl
@[simp] theorem opHold_sync (d : Duration) (s : State) : (opHold d s).sync = s.sync := rfl
@[simp] theorem opHold_symbol (d : Duration) (s : State) : (opHold d s).symbol = s.symbol := rfl
@[simp] theorem opHold_timer (d : Duration) (s : State) : (opHold d s).timer = d := rfl
@[simp] theorem opHold_phase (d : Duration) (s : State) : (opHold d s).phase = s.phase := rfl
@[simp] theorem opHold_syncIdx (d : Duration) (s : State) : (opHold d s).syncIdx = s.syncIdx := rfl
@[simp] theorem opHold_bitIdx (d : Duration) (s : State) : (opHold d s).bitIdx = s.bitIdx := rfl
@[simp] theorem opHold_txIdx (d : Duration) (s : State) : (opHold d s).txIdx = s.txIdx := rfl
@[simp] theorem opHold_burst (d : Duration) (s : State) : (opHold d s).burst = s.burst := rfl
@[simp] theorem opHold_inputs (d : Duration) (s : State) : (opHold d s).inputs = s.inputs := rfl
@[simp] theorem opHold_microProg (d : Duration) (s : State) : (opHold d s).microProg = s.microProg := rfl
@[simp] theorem opHold_trace (d : Duration) (s : State) : (opHold d s).trace = s.trace ++ [{ level := s.line, ticks := d.toNat }] := rfl

/-! ## opCountDown -/

@[simp] theorem opCountDown_line (s : State) : (opCountDown s).line = s.line := rfl
@[simp] theorem opCountDown_frame (s : State) : (opCountDown s).frame = s.frame := rfl
@[simp] theorem opCountDown_sync (s : State) : (opCountDown s).sync = s.sync := rfl
@[simp] theorem opCountDown_symbol (s : State) : (opCountDown s).symbol = s.symbol := rfl
@[simp] theorem opCountDown_timer (s : State) : (opCountDown s).timer = s.timer - 1 := rfl
@[simp] theorem opCountDown_phase (s : State) : (opCountDown s).phase = s.phase := rfl
@[simp] theorem opCountDown_syncIdx (s : State) : (opCountDown s).syncIdx = s.syncIdx := rfl
@[simp] theorem opCountDown_bitIdx (s : State) : (opCountDown s).bitIdx = s.bitIdx := rfl
@[simp] theorem opCountDown_txIdx (s : State) : (opCountDown s).txIdx = s.txIdx := rfl
@[simp] theorem opCountDown_burst (s : State) : (opCountDown s).burst = s.burst := rfl
@[simp] theorem opCountDown_inputs (s : State) : (opCountDown s).inputs = s.inputs := rfl
@[simp] theorem opCountDown_microProg (s : State) : (opCountDown s).microProg = s.microProg := rfl
@[simp] theorem opCountDown_trace (s : State) : (opCountDown s).trace = s.trace := rfl

/-! ## opLatch -/

@[simp] theorem opLatch_line (f : FrameWord) (b : Bool) (n : BitVec 8) (s : State) : (opLatch f b n s).line = s.line := rfl
@[simp] theorem opLatch_frame (f : FrameWord) (b : Bool) (n : BitVec 8) (s : State) : (opLatch f b n s).frame = f := rfl
@[simp] theorem opLatch_sync (f : FrameWord) (b : Bool) (n : BitVec 8) (s : State) : (opLatch f b n s).sync = n := rfl
@[simp] theorem opLatch_symbol (f : FrameWord) (b : Bool) (n : BitVec 8) (s : State) : (opLatch f b n s).symbol = s.symbol := rfl
@[simp] theorem opLatch_timer (f : FrameWord) (b : Bool) (n : BitVec 8) (s : State) : (opLatch f b n s).timer = s.timer := rfl
@[simp] theorem opLatch_phase (f : FrameWord) (b : Bool) (n : BitVec 8) (s : State) : (opLatch f b n s).phase = s.phase := rfl
@[simp] theorem opLatch_syncIdx (f : FrameWord) (b : Bool) (n : BitVec 8) (s : State) : (opLatch f b n s).syncIdx = s.syncIdx := rfl
@[simp] theorem opLatch_bitIdx (f : FrameWord) (b : Bool) (n : BitVec 8) (s : State) : (opLatch f b n s).bitIdx = s.bitIdx := rfl
@[simp] theorem opLatch_txIdx (f : FrameWord) (b : Bool) (n : BitVec 8) (s : State) : (opLatch f b n s).txIdx = 0 := rfl
@[simp] theorem opLatch_burst (f : FrameWord) (b : Bool) (n : BitVec 8) (s : State) : (opLatch f b n s).burst = b := rfl
@[simp] theorem opLatch_inputs (f : FrameWord) (b : Bool) (n : BitVec 8) (s : State) : (opLatch f b n s).inputs = s.inputs := rfl
@[simp] theorem opLatch_microProg (f : FrameWord) (b : Bool) (n : BitVec 8) (s : State) : (opLatch f b n s).microProg = s.microProg := rfl
@[simp] theorem opLatch_trace (f : FrameWord) (b : Bool) (n : BitVec 8) (s : State) : (opLatch f b n s).trace = s.trace := rfl

/-! ## opIdle -/

@[simp] theorem opIdle_line (s : State) : (opIdle s).line = s.line := rfl
@[simp] theorem opIdle_frame (s : State) : (opIdle s).frame = s.frame := rfl
@[simp] theorem opIdle_sync (s : State) : (opIdle s).sync = s.sync := rfl
@[simp] theorem opIdle_symbol (s : State) : (opIdle s).symbol = s.symbol := rfl
@[simp] theorem opIdle_timer (s : State) : (opIdle s).timer = 0 := rfl
@[simp] theorem opIdle_phase (s : State) : (opIdle s).phase = .idle := rfl
@[simp] theorem opIdle_syncIdx (s : State) : (opIdle s).syncIdx = s.syncIdx := rfl
@[simp] theorem opIdle_bitIdx (s : State) : (opIdle s).bitIdx = s.bitIdx := rfl
@[simp] theorem opIdle_txIdx (s : State) : (opIdle s).txIdx = s.txIdx := rfl
@[simp] theorem opIdle_burst (s : State) : (opIdle s).burst = s.burst := rfl
@[simp] theorem opIdle_inputs (s : State) : (opIdle s).inputs = s.inputs := rfl
@[simp] theorem opIdle_microProg (s : State) : (opIdle s).microProg = s.microProg := rfl
@[simp] theorem opIdle_trace (s : State) : (opIdle s).trace = s.trace := rfl

/-! ## opMicroDone -/

@[simp] theorem opMicroDone_line (s : State) : (opMicroDone s).line = s.line := rfl
@[simp] theorem opMicroDone_frame (s : State) : (opMicroDone s).frame = s.frame := rfl
@[simp] theorem opMicroDone_sync (s : State) : (opMicroDone s).sync = s.sync := rfl
@[simp] theorem opMicroDone_symbol (s : State) : (opMicroDone s).symbol = s.symbol := rfl
@[simp] theorem opMicroDone_timer (s : State) : (opMicroDone s).timer = 0 := rfl
@[simp] theorem opMicroDone_phase (s : State) : (opMicroDone s).phase = s.phase := rfl
@[simp] theorem opMicroDone_syncIdx (s : State) : (opMicroDone s).syncIdx = s.syncIdx := rfl
@[simp] theorem opMicroDone_bitIdx (s : State) : (opMicroDone s).bitIdx = s.bitIdx := rfl
@[simp] theorem opMicroDone_txIdx (s : State) : (opMicroDone s).txIdx = s.txIdx := rfl
@[simp] theorem opMicroDone_burst (s : State) : (opMicroDone s).burst = s.burst := rfl
@[simp] theorem opMicroDone_inputs (s : State) : (opMicroDone s).inputs = s.inputs := rfl
@[simp] theorem opMicroDone_microProg (s : State) : (opMicroDone s).microProg = none := rfl
@[simp] theorem opMicroDone_trace (s : State) : (opMicroDone s).trace = s.trace := rfl

/-! ## applyReset: every field is the reset state's, but for the host's inputs -/

@[simp] theorem applyReset_inputs (s : State) : (applyReset s).inputs = s.inputs := rfl

theorem applyReset_eq (s : State) : applyReset s = { State.reset with inputs := s.inputs } := rfl

/-- Reset depends on nothing but the host's inputs. -/
theorem applyReset_congr {s t : State} (h : s.inputs = t.inputs) : applyReset s = applyReset t := by
  rw [applyReset_eq, applyReset_eq, h]

/-! ## The port -/

theorem State.port_nil {s : State} (h : s.inputs = []) : s.port = .quiet := by
  rw [State.port, h]

theorem State.port_cons {s : State} {p : PortIn} {ps : List PortIn} (h : s.inputs = p :: ps) : s.port = p := by
  rw [State.port, h]

@[simp] theorem State.port_mk_cons (s : State) (p : PortIn) (ps : List PortIn) :
    ({ s with inputs := p :: ps } : State).port = p := rfl

@[simp] theorem State.advance_mk_cons (s : State) (p : PortIn) (ps : List PortIn) :
    ({ s with inputs := p :: ps } : State).advance = { s with inputs := ps } := rfl

/-- The port's `rst` is low where the first listed input, if any, has it low. -/
theorem State.port_rst_of_take {s : State} {k : Nat} (h : ∀ p ∈ s.inputs.take (k + 1), p.rst = false) :
    s.port.rst = false := by
  cases hs : s.inputs with
  | nil => rw [State.port_nil hs]; rfl
  | cons p ps => rw [State.port_cons hs]; exact h p (by simp [hs])

end Sys2Proof.Machine
end

