-- ==== Sys2Proof/Laws/Ops.lean ====
section
/-!
SUPPORT. For each shared operation, one lemma that says everything it does; callers cite it instead of unfolding it.
-/

namespace Sys2Proof.Machine

/-! ## Operands (R14, R56, R62) -/

theorem symbolLegal_iff (n : BitVec 16) : symbolLegal n = true ↔ 1 ≤ n.toNat ∧ n.toNat ≤ 16383 := by
  unfold symbolLegal symbolMin symbolMax
  rw [Bool.and_eq_true, decide_eq_true_iff, decide_eq_true_iff]

/-- The 16-bit product `4 x SYMBOL` does not overflow for a legal symbol (R56). -/
theorem syncHold_toNat {symbol : BitVec 16} (h : symbol.toNat ≤ 16383) :
    (syncHold symbol).toNat = 4 * symbol.toNat := by
  rw [syncHold, syncMult, BitVec.toNat_mul, BitVec.toNat_ofNat]
  omega

/-! ## Issuing micro-operations and entering a phase (R50, R91) -/

@[simp] theorem issue_nil (s : State) : issue [] s = s := rfl

@[simp] theorem issue_cons (m : MicroOp) (ms : List MicroOp) (s : State) :
    issue (m :: ms) s = issue ms (issueOne m s) := rfl

theorem enter_setLevel_hold (p : Phase) (l : Level) (d : Duration) (s : State) :
    enter p [.setLevel l, .hold d] s =
      { s with phase := p, line := l, timer := d, trace := s.trace ++ [⟨l, d.toNat⟩] } := rfl

theorem enter_toggle_hold (p : Phase) (d : Duration) (s : State) :
    enter p [.toggle, .hold d] s =
      { s with phase := p, line := !s.line, timer := d, trace := s.trace ++ [⟨!s.line, d.toNat⟩] } := rfl

theorem enter_hold (p : Phase) (d : Duration) (s : State) :
    enter p [.hold d] s = { s with phase := p, timer := d, trace := s.trace ++ [⟨s.line, d.toNat⟩] } := rfl

theorem enterSyncHi_eq (k : BitVec 8) (s : State) :
    enterSyncHi k s = { s with phase := .syncHi, line := true, timer := syncHold s.symbol, syncIdx := k,
                               trace := s.trace ++ [⟨true, (syncHold s.symbol).toNat⟩] } := rfl

theorem enterStartHi_eq (s : State) :
    enterStartHi s = { s with phase := .startHi, line := true, timer := tStartHi,
                              trace := s.trace ++ [⟨true, tStartHi.toNat⟩] } := rfl

theorem enterDataA_eq (i : BitVec 6) (s : State) :
    enterDataA i s = { s with phase := .dataA, bitIdx := i, line := firstHalfLevel s.frame i.toNat, timer := s.symbol,
                              trace := s.trace ++ [⟨firstHalfLevel s.frame i.toNat, s.symbol.toNat⟩] } := rfl

/-- The three ways a transmission begins (R93). -/
theorem beginTx_cases (n : BitVec 8) (s : State) :
    (n = 2 ∧ beginTx n s = enter .wakeHi [.setLevel true, .hold tWakeHi] s)
    ∨ (n ≠ 2 ∧ n ≠ 0 ∧ beginTx n s = enterSyncHi 0 s) ∨ (n = 0 ∧ beginTx n s = enterStartHi s) := by
  by_cases h2 : n = 2
  · subst h2; exact .inl ⟨rfl, rfl⟩
  · have hw : wake n = false := by simpa [wake, syncFirst] using h2
    by_cases h0 : n = 0
    · subst h0; exact .inr (.inr ⟨rfl, rfl⟩)
    · refine .inr (.inl ⟨h2, h0, ?_⟩)
      rw [beginTx, hw, if_neg Bool.false_ne_true, if_pos h0]

/-- What `begin_tx` never touches. -/
theorem beginTx_frame (n : BitVec 8) (s : State) :
    (beginTx n s).frame = s.frame ∧ (beginTx n s).sync = s.sync ∧ (beginTx n s).symbol = s.symbol
    ∧ (beginTx n s).bitIdx = s.bitIdx ∧ (beginTx n s).txIdx = s.txIdx ∧ (beginTx n s).burst = s.burst
    ∧ (beginTx n s).inputs = s.inputs ∧ (beginTx n s).microProg = s.microProg ∧ (beginTx n s).line = true := by
  obtain ⟨_, h⟩ | ⟨_, _, h⟩ | ⟨_, h⟩ := beginTx_cases n s <;> rw [h] <;> exact ⟨rfl, rfl, rfl, rfl, rfl, rfl, rfl, rfl, rfl⟩

/-! ## The sequencer (R94 to R104) -/

theorem holdCounter_of_lt {s : State} (h : 1 < s.timer.toNat) : holdCounter s = opCountDown s := if_pos h

theorem holdCounter_of_not_lt {s : State} (h : ¬1 < s.timer.toNat) : holdCounter s = expire s := if_neg h

/-- The expiry rule of a phase, by the phase's name. -/
theorem expire_eq {s : State} {p : Phase} (h : s.phase = p) : expire s = expireOf p s := by
  rw [expire, h]

/-- R104, a transmission of a burst that is not the last. -/
theorem expireSilence_repeat {s : State} (hb : s.burst = true) (ht : s.txIdx.toNat < 2) :
    expireSilence s = beginTx syncRepeat { s with txIdx := s.txIdx + 1, sync := syncRepeat } := by
  rw [expireSilence, if_pos]
  rw [Bool.and_eq_true, decide_eq_true_iff, nTx]
  exact ⟨hb, by omega⟩

/-- R104, the end of a command. -/
theorem expireSilence_end {s : State} (h : ¬(s.burst = true ∧ s.txIdx.toNat < 2)) : expireSilence s = opIdle s := by
  rw [expireSilence, if_neg]
  rw [Bool.and_eq_true, decide_eq_true_iff, nTx]
  exact fun ⟨hb, ht⟩ => h ⟨hb, by omega⟩

/-- What no expiry rule touches: the frame, the symbol, BURST, the host's inputs and the offered micro-program. -/
theorem expire_frame (s : State) :
    (expire s).frame = s.frame ∧ (expire s).symbol = s.symbol ∧ (expire s).burst = s.burst
    ∧ (expire s).inputs = s.inputs ∧ (expire s).microProg = s.microProg := by
  cases h : s.phase <;> rw [expire_eq h] <;> dsimp only [expireOf]
  case syncLo => unfold expireSyncLo; split <;> exact ⟨rfl, rfl, rfl, rfl, rfl⟩
  case dataB => unfold expireDataB; split <;> exact ⟨rfl, rfl, rfl, rfl, rfl⟩
  case silence =>
    unfold expireSilence
    split
    · obtain ⟨hf, -, hs, -, -, hb, hi, hm, -⟩ := beginTx_frame syncRepeat { s with txIdx := s.txIdx + 1, sync := syncRepeat }
      exact ⟨hf, hs, hb, hi, hm⟩
    · exact ⟨rfl, rfl, rfl, rfl, rfl⟩
  all_goals exact ⟨rfl, rfl, rfl, rfl, rfl⟩

/-- An expiry rule does not read TIMER. -/
theorem expire_timer {s : State} (hb : s.phase ≠ .idle) (v : BitVec 16) : expire { s with timer := v } = expire s := by
  show expireOf s.phase { s with timer := v } = expireOf s.phase s
  cases h : s.phase
  case idle => contradiction
  all_goals rfl

end Sys2Proof.Machine
end

