-- ==== Sys2Proof/Laws/Step.lean ====
section
/-!
SUPPORT. What a step can do, said once: one lemma per case of R108, and the inversion lemma over them.
-/

namespace Sys2Proof.Machine

theorem step_of_rst {s : State} (h : s.port.rst = true) : step s = .next (applyReset s.advance) := if_pos h

theorem step_of_micro {s : State} {ws : List MicroWord} (hr : s.port.rst = false) (hm : s.microProg = some ws)
    (hi : s.phase = .idle) : step s = microTick ws s.advance := by
  simp [step, tick, hr, hm, hi]

theorem step_of_micro_busy {s : State} {ws : List MicroWord} (hr : s.port.rst = false) (hm : s.microProg = some ws)
    (hb : s.phase ≠ .idle) : step s = .fault .lineSharedWhileBusy := by
  simp [step, tick, hr, hm, hb]

theorem step_of_idle {s : State} (hr : s.port.rst = false) (hm : s.microProg = none) (hi : s.phase = .idle) :
    step s = acceptCommand s.port s.advance := by
  simp [step, tick, hr, hm, hi]

theorem step_of_busy {s : State} (hr : s.port.rst = false) (hm : s.microProg = none) (hb : s.phase ≠ .idle) :
    step s = .next (holdCounter s.advance) := by
  simp [step, tick, hr, hm, hb]

/-- Every command executes in every state (R110), and this is all it can do. -/
theorem exec_command (w : CmdWord) (s : State) :
    exec (decodeCommand w) s = .next s
    ∨ (∃ n, symbolLegal n = true ∧ exec (decodeCommand w) s = .next { s with symbol := n })
    ∨ (∃ f n b, (b = true → n = 2) ∧ exec (decodeCommand w) s = .next (beginTx n (opLatch f b n s))) := by
  unfold decodeCommand
  split
  · exact .inl rfl
  · split
    · exact .inr (.inr ⟨cmdFrame w, 2, true, fun _ => rfl, rfl⟩)
    · split
      · exact .inr (.inr ⟨cmdFrame w, cmdSync w, false, nofun, rfl⟩)
      · by_cases h : symbolLegal (cmdImm16 w) = true
        · exact .inr (.inl ⟨cmdImm16 w, h, by simp [exec, execSetsym, h]⟩)
        · exact .inl (by simp [exec, execSetsym, h])

/-- The inversion lemma: a step of a block driven by its own sequencer is a reset, an idle tick, a new symbol, the
beginning of a command, a tick of a hold, or the expiry of a phase. -/
theorem step_cases {s t : State} (hm : s.microProg = none) (h : step s = .next t) :
    (s.port.rst = true ∧ t = applyReset s.advance)
    ∨ (s.port.rst = false ∧ s.phase = .idle ∧ t = s.advance)
    ∨ (s.port.rst = false ∧ s.phase = .idle ∧ ∃ n, symbolLegal n = true ∧ t = { s.advance with symbol := n })
    ∨ (s.port.rst = false ∧ s.phase = .idle
        ∧ ∃ f n b, (b = true → n = 2) ∧ t = beginTx n (opLatch f b n s.advance))
    ∨ (s.port.rst = false ∧ s.phase ≠ .idle ∧ 1 < s.timer.toNat ∧ t = opCountDown s.advance)
    ∨ (s.port.rst = false ∧ s.phase ≠ .idle ∧ ¬1 < s.timer.toNat ∧ t = expire s.advance) := by
  cases hr : s.port.rst with
  | true => rw [step_of_rst hr] at h; cases h; exact .inl ⟨rfl, rfl⟩
  | false =>
    refine .inr ?_
    by_cases hi : s.phase = .idle
    · rw [step_of_idle hr hm hi, acceptCommand] at h
      split at h
      · obtain e | ⟨n, hn, e⟩ | ⟨f, n, b, hb, e⟩ := exec_command s.port.cmd s.advance <;> rw [e] at h <;> cases h
        · exact .inl ⟨rfl, hi, rfl⟩
        · exact .inr (.inl ⟨rfl, hi, n, hn, rfl⟩)
        · exact .inr (.inr (.inl ⟨rfl, hi, f, n, b, hb, rfl⟩))
      · cases h; exact .inl ⟨rfl, hi, rfl⟩
    · rw [step_of_busy hr hm hi, holdCounter] at h
      split at h <;> cases h
      · exact .inr (.inr (.inr (.inl ⟨rfl, hi, ‹_›, rfl⟩)))
      · exact .inr (.inr (.inr (.inr ⟨rfl, hi, ‹_›, rfl⟩)))

end Sys2Proof.Machine
end

