-- ==== Sys2Proof/Laws/Observe.lean ====
section
/-!
SUPPORT. Following the machine over several ticks: what one tick adds, how two stretches join, and where `rst` is low.
-/

namespace Sys2Proof.Machine

/-! ## One tick -/

theorem afterTicks_succ {s t : State} (k : Nat) (h : step s = .next t) : afterTicks (k + 1) s = afterTicks k t := by
  simp only [afterTicks, h]

theorem wave_succ {s t : State} (k : Nat) (h : step s = .next t) : wave (k + 1) s = s.line :: wave k t := by
  simp only [wave, h, State.tx]

theorem busyWave_succ {s t : State} (k : Nat) (h : step s = .next t) :
    busyWave (k + 1) s = s.busy :: busyWave k t := by
  simp only [busyWave, h]

/-- Where the machine goes on for a tick at least, its first step has a next state. -/
theorem step_of_afterTicks_succ {s u : State} {k : Nat} (h : afterTicks (k + 1) s = some u) :
    ∃ t, step s = .next t ∧ afterTicks k t = some u := by
  simp only [afterTicks] at h
  split at h
  · exact ⟨_, ‹_›, h⟩
  · cases h
  · cases h

/-! ## Joining two stretches -/

theorem afterTicks_add {s t : State} (j k : Nat) (h : afterTicks j s = some t) :
    afterTicks (j + k) s = afterTicks k t := by
  induction j generalizing s with
  | zero => cases h; rw [Nat.zero_add]
  | succ j ih =>
    obtain ⟨u, hu, h⟩ := step_of_afterTicks_succ h
    rw [Nat.succ_add, afterTicks_succ _ hu, ih h]

theorem wave_add {s t : State} (j k : Nat) (h : afterTicks j s = some t) :
    wave (j + k) s = wave j s ++ wave k t := by
  induction j generalizing s with
  | zero => cases h; rw [Nat.zero_add]; rfl
  | succ j ih =>
    obtain ⟨u, hu, h⟩ := step_of_afterTicks_succ h
    rw [Nat.succ_add, wave_succ _ hu, wave_succ _ hu, ih h, List.cons_append]

theorem busyWave_add {s t : State} (j k : Nat) (h : afterTicks j s = some t) :
    busyWave (j + k) s = busyWave j s ++ busyWave k t := by
  induction j generalizing s with
  | zero => cases h; rw [Nat.zero_add]; rfl
  | succ j ih =>
    obtain ⟨u, hu, h⟩ := step_of_afterTicks_succ h
    rw [Nat.succ_add, busyWave_succ _ hu, busyWave_succ _ hu, ih h, List.cons_append]

/-! ## Where `rst` is low -/

theorem rstLow_take_add {ps : List PortIn} {j k : Nat} :
    RstLow (ps.take (j + k)) ↔ RstLow (ps.take j) ∧ RstLow ((ps.drop j).take k) := by
  simp only [RstLow, List.take_add, List.mem_append, or_imp, forall_and]

theorem rstLow_tail {ps : List PortIn} {k : Nat} (h : RstLow (ps.take (k + 1))) : RstLow (ps.tail.take k) := by
  rw [Nat.add_comm, rstLow_take_add] at h
  rw [← List.drop_one]; exact h.2

theorem rstLow_mono {ps : List PortIn} {j k : Nat} (hjk : j ≤ k) (h : RstLow (ps.take k)) : RstLow (ps.take j) := by
  obtain ⟨m, rfl⟩ := Nat.exists_eq_add_of_le hjk
  exact (rstLow_take_add.1 h).1

end Sys2Proof.Machine
end

