-- ==== Sys2Proof/Laws/PerInstr.lean ====
section
/-!
SUPPORT. A statement for every instruction, as syntax: its encoded word lies in its row of spec/opcode_table.json,
that is, `word AND mask == match` with the row's own mask and match.
-/

namespace Sys2Proof.Laws.TableRow

/-- The row's mask and match, as the table writes them. -/
def row : Instr → Nat × Nat
  | .nop => (0x30000000000000000, 0x00000000000000000)
  | .send _ => (0x30000000000000000, 0x10000000000000000)
  | .transmit _ _ => (0x30000000000000000, 0x20000000000000000)
  | .setsym _ => (0x30000000000000000, 0x30000000000000000)
  | .hold _ => (0x30000, 0x00000)
  | .setLevel _ => (0x3FFFE, 0x10000)
  | .toggle => (0x3FFFF, 0x20000)

/-- A word lies in a row. -/
def InRow : CodeWord → Nat × Nat → Prop
  | .cmd66 w, r => w &&& BitVec.ofNat 66 r.1 = BitVec.ofNat 66 r.2
  | .uop18 w, r => w &&& BitVec.ofNat 18 r.1 = BitVec.ofNat 18 r.2

def Statement (i : Instr) : Prop := InRow (encode i) (row i)

/-- A 66-bit word lies in a row whose mask and match are `m` and `v`, written as concatenated fields. -/
theorem inRow_cmd66 {w : CmdWord} {r : Nat × Nat} (m v : CmdWord) (hm : BitVec.ofNat 66 r.1 = m)
    (hv : BitVec.ofNat 66 r.2 = v) (h : w &&& m = v) : InRow (.cmd66 w) r := by
  subst hm hv; exact h

/-- The same for an 18-bit word. -/
theorem inRow_uop18 {w : MicroWord} {r : Nat × Nat} (m v : MicroWord) (hm : BitVec.ofNat 18 r.1 = m)
    (hv : BitVec.ofNat 18 r.2 = v) (h : w &&& m = v) : InRow (.uop18 w) r := by
  subst hm hv; exact h

theorem nop : Statement .nop := by
  show (0#2 ++ 0#8 ++ 0#56) &&& _ = _
  decide

theorem send (frame : FrameWord) : Statement (.send frame) := by
  have h : ((1#2 ++ 0#8) ++ frame) &&& ((3#2 ++ 0#8) ++ 0#56) = (1#2 ++ 0#8) ++ 0#56 := by
    rw [BitVec.and_append, BitVec.and_zero]; decide
  exact inRow_cmd66 (r := (0x30000000000000000, 0x10000000000000000)) ((3#2 ++ 0#8) ++ 0#56) ((1#2 ++ 0#8) ++ 0#56)
    (by decide) (by decide) h

theorem transmit (sync : BitVec 8) (frame : FrameWord) : Statement (.transmit sync frame) := by
  have h : ((2#2 ++ sync) ++ frame) &&& ((3#2 ++ 0#8) ++ 0#56) = (2#2 ++ 0#8) ++ 0#56 := by
    rw [BitVec.and_append, BitVec.and_append, BitVec.and_zero, BitVec.and_zero]; decide
  exact inRow_cmd66 (r := (0x30000000000000000, 0x20000000000000000)) ((3#2 ++ 0#8) ++ 0#56) ((2#2 ++ 0#8) ++ 0#56)
    (by decide) (by decide) h

theorem setsym (imm : BitVec 16) : Statement (.setsym imm) := by
  have h : ((3#2 ++ 0#48) ++ imm) &&& ((3#2 ++ 0#48) ++ 0#16) = (3#2 ++ 0#48) ++ 0#16 := by
    rw [BitVec.and_append, BitVec.and_zero]; decide
  exact inRow_cmd66 (r := (0x30000000000000000, 0x30000000000000000)) ((3#2 ++ 0#48) ++ 0#16) ((3#2 ++ 0#48) ++ 0#16)
    (by decide) (by decide) h

theorem hold (d : Duration) : Statement (.hold d) := by
  have h : (0#2 ++ d) &&& (3#2 ++ 0#16) = 0#2 ++ 0#16 := by
    rw [BitVec.and_append, BitVec.and_zero]; decide
  exact inRow_uop18 (r := (0x30000, 0x00000)) (3#2 ++ 0#16) (0#2 ++ 0#16)
    (by decide) (by decide) h

theorem setLevel (l : Level) : Statement (.setLevel l) := by
  have h : ((1#2 ++ 0#15) ++ BitVec.ofBool l) &&& ((3#2 ++ 0x7FFF#15) ++ 0#1) = (1#2 ++ 0#15) ++ 0#1 := by
    rw [BitVec.and_append, BitVec.and_zero]; decide
  exact inRow_uop18 (r := (0x3FFFE, 0x10000)) ((3#2 ++ 0x7FFF#15) ++ 0#1) ((1#2 ++ 0#15) ++ 0#1)
    (by decide) (by decide) h

theorem toggle : Statement .toggle := by
  show (2#2 ++ 0#16) &&& _ = _
  decide

end Sys2Proof.Laws.TableRow
end

