-- ==== Sys2Proof/Machine/Text.lean ====
section
/-!
DEFINITION. The written syntax of R46, as lists of characters. The reverse, reading a line of text, belongs to the
excluded command layer (R4, R118) and is not modelled.
-/

namespace Sys2Proof.Machine

/-- A hexadecimal digit. -/
def hexDigit (d : Nat) : Char := ("0123456789ABCDEF".toList).getD d '?'

/-- The 14 hexadecimal digits of a frame, byte 0 first (R46). -/
def frameText (frame : FrameWord) : List Char :=
  (List.range 7).flatMap fun k => [hexDigit ((frameByte frame k).toNat / 16), hexDigit ((frameByte frame k).toNat % 16)]

/-- The instruction as R46 writes it. -/
def instrText : Instr → List Char
  | .nop => "NOP".toList
  | .send frame => "SEND ".toList ++ frameText frame
  | .transmit sync frame => "TRANSMIT ".toList ++ (toString sync.toNat).toList ++ ", ".toList ++ frameText frame
  | .setsym imm => "SETSYM ".toList ++ (toString imm.toNat).toList
  | .hold d => "HOLD ".toList ++ (toString d.toNat).toList
  | .setLevel l => "SET_LEVEL ".toList ++ (if l then "1".toList else "0".toList)
  | .toggle => "TOGGLE".toList

end Sys2Proof.Machine
end

