-- ==== Sys2Proof/Tests/Slice0.lean ====
section
/-!
SUPPORT. The model's own tests. Expected values are those of 95_test_vectors.md (the vector stands in each docstring)
or are worked out by hand from the rule named. The last part holds, for every statement with hypotheses, a concrete
case that meets them.
-/

namespace Sys2Proof.Tests

open Sys2Proof Sys2Proof.Machine

/-! ## Helpers -/

/-- The next state, if there is one. -/
def nextOf : Host.Outcome State Fault Refusal → Option State
  | .next t => some t
  | .fault _ => none
  | .refused _ => none

/-- The fault, if there is one. -/
def faultOf : Host.Outcome State Fault Refusal → Option Fault
  | .next _ => none
  | .fault f => some f
  | .refused _ => none

/-- The refusal, if there is one. -/
def refusalOf : Host.Outcome State Fault Refusal → Option Refusal
  | .next _ => none
  | .fault _ => none
  | .refused r => some r

/-- The instruction a micro-operation word decodes to, if any. -/
def microOf (w : MicroWord) : Option Instr :=
  match decodeMicro w with
  | .ok i => some i
  | .error _ => none

/-- Why a micro-operation word is refused, if it is. -/
def microErrorOf (w : MicroWord) : Option DecodeError :=
  match decodeMicro w with
  | .ok _ => none
  | .error e => some e

/-- The frame F0 of the test vectors. -/
def f0 : FrameWord := 0xA71A2B3C4D5E6F

/-- The port inputs of a tick at which `w` is presented, `rst` low. -/
def present (w : CmdWord) : PortIn := { rst := false, cmdValid := true, cmd := w }

/-- The port inputs of a tick with `rst` high and `w` presented. -/
def resetting (w : CmdWord) : PortIn := { rst := true, cmdValid := true, cmd := w }

/-- The reset state, `w` presented at this tick. -/
def offered (w : CmdWord) : State := { State.reset with inputs := [present w] }

/-- A block in phase `p` at the last tick of its hold, with frame F0 and the default symbol. -/
def expiring (p : Phase) : State := { State.reset with phase := p, timer := 1, frame := f0 }

/-- A block to which micro-operation words are offered directly. -/
def programmed (ws : List MicroWord) : State := { State.reset with microProg := some ws }

/-! ## Well-formedness (R46, R53) -/

theorem test_wellFormed_hold_zero_refused : WellFormed (.hold 0) = false := by decide
theorem test_wellFormed_hold_bounds : WellFormed (.hold 1) = true ∧ WellFormed (.hold 65535) = true := by decide

/-! ## Decoding: words written out from R41, R43 and R45 -/

/-- C1, C14: NOP ignores every other bit. -/
theorem test_decode_nop :
    decodeCommand 0x00000000000000000 = .nop ∧ decodeCommand 0x0FFFFFFFFFFFFFFFF = .nop := by decide

/-- C2, C14: SEND ignores `sync`. -/
theorem test_decode_send :
    decodeCommand 0x100A71A2B3C4D5E6F = .send f0 ∧ decodeCommand 0x1FFA71A2B3C4D5E6F = .send f0 := by decide

/-- C3, C5, C6, C7. -/
theorem test_decode_transmit :
    decodeCommand 0x202A71A2B3C4D5E6F = .transmit 2 f0 ∧ decodeCommand 0x20700000000000000 = .transmit 7 0
    ∧ decodeCommand 0x200FFFFFFFFFFFFFF = .transmit 0 0xFFFFFFFFFFFFFF
    ∧ decodeCommand 0x2FF00000000000000 = .transmit 255 0 := by decide

/-- C9 to C12, C14: SETSYM, its illegal values included, ignores bits 63:16. -/
theorem test_decode_setsym :
    decodeCommand 0x300000000000001F4 = .setsym 500 ∧ decodeCommand 0x30000000000003FFF = .setsym 16383
    ∧ decodeCommand 0x30000000000004000 = .setsym 16384 ∧ decodeCommand 0x30000000000000000 = .setsym 0
    ∧ decodeCommand 0x3ABCDEF0123450280 = .setsym 640 := by decide

/-- C15, and R45's kind 0 written bit by bit. -/
theorem test_decode_hold :
    microOf 0x00001 = some (.hold 1) ∧ microOf 0x0FFFF = some (.hold 65535)
    ∧ microOf 0b00_0010010011000111 = some (.hold 9415) := by decide

/-- C15, and R45's kind 1 written bit by bit; a nonzero bit in 15:1 is never generated. -/
theorem test_decode_setLevel :
    microOf 0b01_0000000000000000 = some (.setLevel false) ∧ microOf 0b01_0000000000000001 = some (.setLevel true)
    ∧ microErrorOf 0b01_0000000000000010 = some .setLevelHighBits
    ∧ microErrorOf 0b01_1000000000000001 = some .setLevelHighBits := by decide

/-- C15, and R45's kind 2 written bit by bit; an argument is outside the row's mask, and kind 3 is never generated. -/
theorem test_decode_toggle :
    microOf 0b10_0000000000000000 = some .toggle ∧ microErrorOf 0b10_0000000000000001 = some .toggleArgument
    ∧ microErrorOf 0b11_0000000000000000 = some .microKindThree := by decide

/-- R46's example words, from the encoder's side. -/
theorem test_encode_examples :
    encode (.send f0) = .cmd66 0x100A71A2B3C4D5E6F ∧ encode (.transmit 7 f0) = .cmd66 0x207A71A2B3C4D5E6F
    ∧ encode (.setsym 640) = .cmd66 0x30000000000000280 ∧ encode .nop = .cmd66 0 ∧ encode (.hold 640) = .uop18 0x00280
    ∧ encode (.setLevel true) = .uop18 0x10001 ∧ encode .toggle = .uop18 0x20000 := by decide

/-- The rows' matches, by the table's widths in whole bytes; a bit above bit 65 or bit 17 does not exist. -/
theorem test_decodeTableWord :
    decodeTableWord 72 0x10000000000000000 = some (.send 0) ∧ decodeTableWord 24 0x10000 = some (.setLevel false)
    ∧ decodeTableWord 24 0x40000 = none ∧ decodeTableWord 72 0x40000000000000000 = none := by decide

/-- R46's syntax. -/
theorem test_text :
    instrText (.transmit 7 f0) = "TRANSMIT 7, A71A2B3C4D5E6F".toList ∧ instrText (.setLevel true) = "SET_LEVEL 1".toList :=
  by decide

/-! ## The frame buffer (R31, R32) -/

/-- M1: the spot values, and the first and the last byte. -/
theorem test_frameBit_m1 :
    frameByte f0 0 = 0xA7 ∧ frameByte f0 6 = 0x6F ∧ frameBit f0 0 = true ∧ frameBit f0 1 = false
    ∧ frameBit f0 7 = true ∧ frameBit f0 8 = false ∧ frameBit f0 15 = false ∧ frameBit f0 48 = false
    ∧ frameBit f0 55 = true := by decide

/-- M3: wrong byte or bit orders fail here. -/
theorem test_frameBit_m3 :
    (List.range 56).filter (fun i => frameBit 0x80000000000001 i) = [0, 55]
    ∧ (List.range 56).filter (fun i => frameBit 0x00000000000080 i) = [48] := by decide

/-! ## One step of each instruction -/

/-- K1. -/
theorem test_step_nop : nextOf (step (offered 0x0FFFFFFFFFFFFFFFF)) = some State.reset := by decide

/-- F1, ticks 0 and 1. -/
theorem test_step_send : nextOf (step (offered 0x1FFA71A2B3C4D5E6F)) = some
    { State.reset with phase := .wakeHi, timer := 9415, line := true, sync := 2, burst := true, frame := f0,
                       trace := [⟨true, 9415⟩] } := by decide

/-- P2, tick 2: SYMBOL 500, seven sync pulses, no wake-up; SYNC_IDX is cleared. -/
theorem test_step_transmit_seven :
    nextOf (step { offered 0x20700000000000000 with symbol := 500, syncIdx := 6 }) = some
      { State.reset with symbol := 500, phase := .syncHi, timer := 2000, line := true, sync := 7,
                         trace := [⟨true, 2000⟩] } := by decide

/-- P3, tick 120005: no wake-up, no sync pulse; SYNC_IDX is not written. -/
theorem test_step_transmit_zero :
    nextOf (step { offered 0x200FFFFFFFFFFFFFF with symbol := 16383, syncIdx := 6, burst := true, txIdx := 2 }) = some
      { State.reset with symbol := 16383, syncIdx := 6, phase := .startHi, timer := 4550, line := true,
                         frame := 0xFFFFFFFFFFFFFF, trace := [⟨true, 4550⟩] } := by decide

/-- K2, K5, K6: the legal values. -/
theorem test_step_setsym_legal :
    nextOf (step (offered 0x300000000000001F4)) = some { State.reset with symbol := 500 }
    ∧ nextOf (step (offered 0x30000000000003FFF)) = some { State.reset with symbol := 16383 }
    ∧ nextOf (step (offered 0x30000000000000001)) = some { State.reset with symbol := 1 } := by decide

/-- K3, K4, K7: the illegal values are dropped. -/
theorem test_step_setsym_illegal :
    nextOf (step (offered 0x30000000000000000)) = some State.reset
    ∧ nextOf (step (offered 0x30000000000004000)) = some State.reset
    ∧ nextOf (step (offered 0x3000000000000FFFF)) = some State.reset := by decide

/-- R53's example: `LINE = 1`, `HOLD 9415` appends `(1, 9415)`. -/
theorem test_step_hold :
    nextOf (step { programmed [0x024C7] with line := true }) = some
      { programmed [] with line := true, timer := 9415, trace := [⟨true, 9415⟩] } := by decide

/-- D3: "HOLD 0 is never issued and has no meaning". -/
theorem test_step_hold_zero : faultOf (step (programmed [0x00000])) = some .holdOfZeroTicks := by decide

/-- R51's example, and a level written over itself. -/
theorem test_exec_setLevel :
    nextOf (exec (.setLevel true) State.reset) = some { State.reset with line := true }
    ∧ nextOf (exec (.setLevel true) { State.reset with line := true }) = some { State.reset with line := true } := by
  decide

/-- R52's example, from both levels. -/
theorem test_exec_toggle :
    nextOf (exec .toggle State.reset) = some { State.reset with line := true }
    ∧ nextOf (exec .toggle { State.reset with line := true }) = some State.reset := by decide

/-- R50: the level operations take no time, so one boundary runs them together with the HOLD that follows. -/
theorem test_step_levels_take_no_time :
    nextOf (step (programmed [0x10001, 0x20000, 0x20000, 0x00003, 0x20000])) = some
      { programmed [0x20000] with line := true, timer := 3, trace := [⟨true, 3⟩] } := by decide

/-- R45: kind 3 has no meaning and is refused by name. -/
theorem test_step_kind_three :
    refusalOf (step (programmed [0x30000])) = some (.undecodableMicroWord .microKindThree) := by decide

/-- R130, D16: a write to the line while `busy` is 1 by another than the sequencer is a fault, at any tick of a hold. -/
theorem test_step_offer_while_busy :
    faultOf (step { programmed [0x10001] with phase := .dataA, timer := 5 }) = some .lineSharedWhileBusy
    ∧ faultOf (step { programmed [0x20000] with phase := .silence, timer := 1 }) = some .lineSharedWhileBusy := by decide

/-- A word offered to the reset state runs as the very next step. -/
theorem test_withFetchWord :
    nextOf (step (State.reset.withFetchWord 72 0x30000000000000280)) = some State.reset
    ∧ (nextOf (step (State.reset.withFetchWord 24 0x20000))).map State.tx = some true
    ∧ (nextOf (step (State.reset.withFetchWord 24 0x0FFFF))).map State.timer = some 65535 := by decide

/-! ## The sequencer: rows of F1, and the branches of R99, R103 and R104 -/

/-- F1, ticks 9415 to 9416, 33445 to 33446, 98980 to 98981. -/
theorem test_expire_wakeUp :
    (nextOf (step { expiring .wakeHi with line := true, sync := 2 })).map (fun t => (t.phase, t.timer, t.line))
      = some (.wakeLo, 24030, false)
    ∧ (nextOf (step { expiring .wakeLo with sync := 2 })).map (fun t => (t.phase, t.timer, t.line))
      = some (.wakeLo2, 65535, false)
    ∧ (nextOf (step { expiring .wakeLo2 with sync := 2, syncIdx := 6 })).map
        (fun t => (t.phase, t.timer, t.line, t.syncIdx)) = some (.syncHi, 2560, true, 0) := by decide

/-- F1, ticks 101540 to 101541, 104100 to 104101, 109220 to 109221; T255: the loop ends at SYNC_IDX 254. -/
theorem test_expire_sync :
    (nextOf (step { expiring .syncHi with line := true, sync := 2 })).map (fun t => (t.phase, t.timer, t.line))
      = some (.syncLo, 2560, false)
    ∧ (nextOf (step { expiring .syncLo with sync := 2 })).map (fun t => (t.phase, t.timer, t.syncIdx))
      = some (.syncHi, 2560, 1)
    ∧ (nextOf (step { expiring .syncLo with sync := 2, syncIdx := 1 })).map (fun t => (t.phase, t.timer, t.syncIdx))
      = some (.startHi, 4550, 1)
    ∧ (nextOf (step { expiring .syncLo with sync := 255, syncIdx := 253 })).map (fun t => (t.phase, t.syncIdx))
      = some (.syncHi, 254)
    ∧ (nextOf (step { expiring .syncLo with sync := 255, syncIdx := 254 })).map (fun t => (t.phase, t.syncIdx))
      = some (.startHi, 254) := by decide

/-- F1, ticks 113770 to 113771, 114410 to 114411: bit 0 of F0 is a 1, so its first half is LOW. -/
theorem test_expire_frameStart :
    (nextOf (step { expiring .startHi with line := true })).map (fun t => (t.phase, t.timer, t.line))
      = some (.startLo, 640, false)
    ∧ (nextOf (step { expiring .startLo with bitIdx := 55 })).map (fun t => (t.phase, t.timer, t.line, t.bitIdx))
      = some (.dataA, 640, false, 0) := by decide

/-- F1, ticks 115050 to 115051, 115690 to 115691, 186090 to 186091. -/
theorem test_expire_data :
    (nextOf (step (expiring .dataA))).map (fun t => (t.phase, t.timer, t.line)) = some (.dataB, 640, true)
    ∧ (nextOf (step { expiring .dataB with line := true })).map (fun t => (t.phase, t.timer, t.line, t.bitIdx))
      = some (.dataA, 640, true, 1)
    ∧ (nextOf (step { expiring .dataB with bitIdx := 54 })).map (fun t => (t.phase, t.bitIdx)) = some (.dataA, 55)
    ∧ (nextOf (step { expiring .dataB with line := true, bitIdx := 55 })).map (fun t => (t.phase, t.timer, t.line))
      = some (.silence, 30415, false) := by decide

/-- F1, ticks 216505 to 216506, 359630 to 359631, 502755 to 502756; P4, tick 216506. -/
theorem test_expire_silence :
    (nextOf (step { expiring .silence with burst := true, sync := 2, syncIdx := 1 })).map
        (fun t => (t.phase, t.timer, t.sync, t.syncIdx, t.txIdx)) = some (.syncHi, 2560, 7, 0, 1)
    ∧ (nextOf (step { expiring .silence with burst := true, sync := 7, syncIdx := 6, txIdx := 1 })).map
        (fun t => (t.phase, t.sync, t.syncIdx, t.txIdx)) = some (.syncHi, 7, 0, 2)
    ∧ nextOf (step { expiring .silence with burst := true, sync := 7, syncIdx := 6, txIdx := 2 }) = some
        { State.reset with frame := f0, burst := true, sync := 7, syncIdx := 6, txIdx := 2 }
    ∧ (nextOf (step { expiring .silence with sync := 2, syncIdx := 1 })).map (fun t => (t.phase, t.timer, t.sync))
      = some (.idle, 0, 2) := by decide

/-- K8: a command presented while busy is not looked at. -/
theorem test_busy_ignores_command :
    nextOf (step { offered 0x30000000000000064 with phase := .wakeHi, timer := 8416 }) = some
      { State.reset with phase := .wakeHi, timer := 8415 } := by decide

/-- X2, X3: reset wins, over a hold and over a command presented with it. -/
theorem test_reset_wins :
    nextOf (step { expiring .dataA with timer := 171, symbol := 500, inputs := [resetting 0x100A71A2B3C4D5E6F] })
      = some State.reset
    ∧ State.cmdReady { State.reset with inputs := [resetting 0x100A71A2B3C4D5E6F] } = false := by decide

/-! ## Micro-programs, traces and durations -/

/-- B1, B5, B8, B10. -/
theorem test_run_vectors :
    run false [.setLevel true, .hold 3, .toggle, .hold 2] = (false, [⟨true, 3⟩, ⟨false, 2⟩])
    ∧ run false [.setLevel true, .setLevel false, .hold 4] = (false, [⟨false, 4⟩])
    ∧ run true [.setLevel false, .hold 1, .toggle, .hold 1] = (true, [⟨false, 1⟩, ⟨true, 1⟩])
    ∧ run false [.toggle, .hold 2, .toggle, .hold 2, .toggle, .hold 2] = (true, [⟨true, 2⟩, ⟨false, 2⟩, ⟨true, 2⟩]) := by
  decide

/-- B1, B4. -/
theorem test_expand_merge :
    expand [⟨true, 3⟩, ⟨false, 2⟩] = [true, true, true, false, false]
    ∧ merge [⟨false, 65535⟩, ⟨false, 1⟩] = [⟨false, 65536⟩] := by decide

/-- T2: the first segments and the last. -/
theorem test_trace_t2 :
    (txTrace f0 2 640).take 12 = [⟨true, 9415⟩, ⟨false, 24030⟩, ⟨false, 65535⟩, ⟨true, 2560⟩, ⟨false, 2560⟩,
      ⟨true, 2560⟩, ⟨false, 2560⟩, ⟨true, 4550⟩, ⟨false, 640⟩, ⟨false, 640⟩, ⟨true, 640⟩, ⟨true, 640⟩]
    ∧ (txTrace f0 2 640).getLast? = some ⟨false, 30415⟩ := by decide

/-- Y1, Y6, T0, T255, S1. -/
theorem test_durations :
    txTicks 2 1 = 134074 ∧ txTicks 7 16383 = 2803692 ∧ txTicks 0 640 = 107285 ∧ txTicks 255 640 = 1412885
    ∧ sendTicks 640 = 502755 ∧ sendTicks 16383 = 7854736 := by decide

/-! ## Witnesses: for each statement with hypotheses, a case that meets them, at the bounds of its clauses -/

/-- Ticks at which the host presents nothing. -/
def quietFor (n : Nat) : List PortIn := List.replicate n PortIn.quiet

theorem rstLow_quiet {ps : List PortIn} (h : ∀ p ∈ ps, p = PortIn.quiet) : RstLow ps := by
  intro p hp; rw [h p hp]; rfl

theorem presents_offered (w : CmdWord) : Presents (offered w) w := ⟨rfl, rfl, rfl, rfl, rfl⟩

/-- The same state with a symbol of one's choosing. -/
def offeredAt (symbol : BitVec 16) (w : CmdWord) : State := { offered w with symbol := symbol }

theorem presents_offeredAt (symbol : BitVec 16) (w : CmdWord) : Presents (offeredAt symbol w) w :=
  ⟨rfl, rfl, rfl, rfl, rfl⟩

/-- After the one presented word the host is quiet, so `rst` stays low for any time. -/
theorem rstLow_offeredAt (symbol : BitVec 16) (w : CmdWord) (k : Nat) : RstLow ((offeredAt symbol w).inputs.take k) := by
  intro p hp
  have h : p ∈ [present w] := List.mem_of_mem_take hp
  rw [List.mem_singleton.1 h]; rfl

theorem witness_ResetInputForcesResetState :
    ({ expiring .dataA with inputs := [resetting 0] } : State).port.rst = true
    ∧ [resetting 0, resetting 1] ≠ [] ∧ (∀ p ∈ [resetting 0, resetting 1], p.rst = true) := by decide

theorem witness_HandshakeDecidesAcceptance :
    (offered 0).microProg = none ∧ (offered 0).port.cmdValid = true ∧ (offered 0).cmdReady = true
    ∧ ({ offered 0 with phase := .silence, timer := 1 } : State).cmdReady = false
    ∧ State.reset.port.cmdValid = false
    ∧ ({ State.reset with inputs := [resetting 0] } : State).cmdReady = false := by decide

theorem witness_StepRunsPresentedCommand :
    Presents (offered 0x30000000000000280) 0x30000000000000280
    ∧ decode (.cmd66 0x30000000000000280) = .ok (.setsym 640) := ⟨presents_offered _, rfl⟩

theorem witness_StepRunsOfferedMicroOperation :
    (programmed [0x10001, 0x00003]).phase = .idle
    ∧ (programmed [0x10001, 0x00003]).microProg = some [0x10001, 0x00003]
    ∧ (programmed [0x10001, 0x00003]).timer.toNat ≤ 1
    ∧ (programmed [0x10001, 0x00003]).port.rst = false
    ∧ decode (.uop18 0x10001) = .ok (.setLevel true) ∧ decode (.uop18 0x00003) = .ok (.hold 3)
    ∧ ({ programmed [0x20000] with timer := 1 } : State).timer.toNat ≤ 1 :=
  ⟨rfl, rfl, by decide, rfl, rfl, rfl, by decide⟩

/-- With `rst` low, and with `rst` high. -/
theorem witness_OfferToABusyBlockFaults :
    ({ programmed [0x10001] with phase := .dataA, timer := 5 } : State).busy = true
    ∧ ({ programmed [0x10001] with phase := .dataA, timer := 5 } : State).microProg = some [0x10001]
    ∧ ({ programmed [0x10001] with phase := .dataA, timer := 5 } : State).port.rst = false
    ∧ ({ programmed [0x10001] with phase := .dataA, timer := 5, inputs := [resetting 0] } : State).port.rst = true := by
  decide

theorem witness_IdleAcceptance :
    State.reset.phase = .idle ∧ State.reset.microProg = none ∧ State.reset.port.rst = false
    ∧ State.reset.port.cmdValid = false ∧ (offered 0).port.cmdValid = true
    ∧ ((offered 0).port.cmd.extractLsb' 64 2 = 0)
    ∧ ((offered 0x100A71A2B3C4D5E6F).port.cmd.extractLsb' 64 2 = 1)
    ∧ ((offered 0x200FFFFFFFFFFFFFF).port.cmd.extractLsb' 64 2 = 2)
    ∧ ((offered 0x30000000000003FFF).port.cmd.extractLsb' 64 2 = 3)
    ∧ (expiring .wakeHi).phase ≠ .idle ∧ (expiring .wakeHi).microProg = none
    ∧ (present 0).rst = (present 0x30000000000000064).rst := by decide

theorem witness_BeginTxSelectsFirstHold :
    (2 : BitVec 8) = 2 ∧ ((1 : BitVec 8) ≠ 2 ∧ (1 : BitVec 8) ≠ 0) ∧ ((3 : BitVec 8) ≠ 2 ∧ (3 : BitVec 8) ≠ 0)
    ∧ ((255 : BitVec 8) ≠ 2 ∧ (255 : BitVec 8) ≠ 0) ∧ (0 : BitVec 8) = 0 := by decide

theorem witness_NopCompletes :
    Presents (offered 0x0FFFFFFFFFFFFFFFF) 0x0FFFFFFFFFFFFFFFF ∧ decodeCommand 0x0FFFFFFFFFFFFFFFF = .nop :=
  ⟨presents_offered _, by decide⟩

theorem witness_SetsymCompletes :
    Presents (offered 0x30000000000003FFF) 0x30000000000003FFF
    ∧ decodeCommand 0x30000000000003FFF = .setsym 16383
    ∧ Presents (offered 0x30000000000004000) 0x30000000000004000
    ∧ decodeCommand 0x30000000000004000 = .setsym 16384 :=
  ⟨presents_offered _, by decide, presents_offered _, by decide⟩

theorem witness_HoldCompletes : (1 : Duration) ≠ 0 ∧ (65535 : Duration) ≠ 0 := by decide

theorem witness_HoldOccupiesItsTicks :
    (programmed [0x0FFFF]).phase = .idle ∧ (programmed [0x0FFFF]).microProg = some [0x0FFFF]
    ∧ (programmed [0x0FFFF]).timer.toNat ≤ 1
    ∧ decode (.uop18 0x0FFFF) = .ok (.hold 65535) ∧ (65535 : Duration) ≠ 0
    ∧ RstLow ((programmed [0x0FFFF]).inputs.take (65535 : Duration).toNat)
    ∧ decode (.uop18 0x00001) = .ok (.hold 1) ∧ (1 : Duration) ≠ 0 :=
  ⟨rfl, rfl, by decide, rfl, by decide, rstLow_quiet (by decide), rfl, by decide⟩

theorem witness_InstructionsLeaveTheRestUnchanged :
    (∀ i ∈ [.nop, .send f0, .transmit 0 f0, .transmit 2 f0, .transmit 255 f0, .setsym 500, .setsym 0, .hold 1,
        .setLevel true, .toggle],
      (nextOf (exec i State.reset)).isSome = true) := by decide

theorem witness_HoldCounterOfABusyBlock :
    (expiring .dataA).phase ≠ .idle ∧ (expiring .dataA).microProg = none ∧ 1 ≤ (expiring .dataA).timer.toNat
    ∧ RstLow ((expiring .dataA).inputs.take (expiring .dataA).timer.toNat)
    ∧ 1 ≤ ({ expiring .wakeLo2 with timer := 65535 } : State).timer.toNat :=
  ⟨by decide, rfl, by decide, rstLow_quiet (by decide), by decide⟩

/-- WakeUpPhasesExpire, SyncPhasesExpire, FrameStartPhasesExpire, DataPhasesExpire, SilenceExpires. -/
theorem witness_expiries :
    (∀ p ∈ [Phase.wakeHi, .wakeLo, .wakeLo2, .syncHi, .syncLo, .startHi, .startLo, .dataA, .dataB, .silence],
      (expiring p).microProg = none ∧ (expiring p).port.rst = false ∧ (expiring p).timer = 1 ∧ (expiring p).phase = p) := by
  decide

theorem witness_SyncPhasesExpire_branches :
    ((0 : BitVec 8).toNat + 1 < (2 : BitVec 8).toNat ∧ ¬ (1 : BitVec 8).toNat + 1 < (2 : BitVec 8).toNat)
    ∧ ((253 : BitVec 8).toNat + 1 < (255 : BitVec 8).toNat ∧ ¬ (255 : BitVec 8).toNat + 1 < (255 : BitVec 8).toNat) := by
  decide

theorem witness_DataPhasesExpire_branches :
    (54 : BitVec 6).toNat < 55 ∧ 55 ≤ (55 : BitVec 6).toNat ∧ 55 ≤ (63 : BitVec 6).toNat := by decide

theorem witness_SilenceExpires_branches :
    (true = true ∧ (1 : BitVec 2).toNat < 2) ∧ ¬(true = true ∧ (2 : BitVec 2).toNat < 2)
    ∧ ¬(false = true ∧ (0 : BitVec 2).toNat < 2) := by decide

/-- F1, tick 0. -/
theorem inv_offered_send : (offered 0x100A71A2B3C4D5E6F).Inv := by
  constructor <;> decide

/-- F1, tick 115050: a busy state in the middle of a burst meets the invariants. -/
theorem inv_busy : ({ expiring .dataA with sync := 2, syncIdx := 1, burst := true } : State).Inv := by
  constructor <;> decide

theorem witness_EveryStepKeepsTheInvariants :
    (offered 0x100A71A2B3C4D5E6F).Inv ∧ (nextOf (step (offered 0x100A71A2B3C4D5E6F))).isSome = true
    ∧ ({ expiring .dataA with sync := 2, syncIdx := 1, burst := true } : State).Inv
    ∧ (nextOf (step { expiring .dataA with sync := 2, syncIdx := 1, burst := true })).isSome = true :=
  ⟨inv_offered_send, by decide, inv_busy, by decide⟩

theorem witness_NoStepOfTheBlockStops :
    State.reset.microProg = none ∧ (expiring .silence).microProg = none := by decide

theorem witness_BusyBlockKeepsFrameAndSymbol :
    (expiring .silence).phase ≠ .idle ∧ (expiring .silence).microProg = none
    ∧ (expiring .silence).port.rst = false ∧ 0 < 7 ∧ 6 < 7 := by decide

theorem witness_EdgesOnlyWhereAHoldBegins :
    (offered 0x100A71A2B3C4D5E6F).microProg = none ∧ (offered 0x100A71A2B3C4D5E6F).port.rst = false
    ∧ (nextOf (step (offered 0x100A71A2B3C4D5E6F))).map State.line = some true
    ∧ (offered 0x100A71A2B3C4D5E6F).line = false := by decide

theorem witness_DecodeOfEncode :
    (∀ i ∈ [.nop, .send f0, .transmit 255 f0, .setsym 65535, .hold 1, .hold 65535, .setLevel true, .setLevel false,
        .toggle], WellFormed i = true) := by decide

theorem witness_UnusedFieldsAreIgnored :
    decodeCommand 0x207A71A2B3C4D5E6F = decodeCommand 0x207A71A2B3C4D5E6F ∧ cmdOp 0x207A71A2B3C4D5E6F = 2 := by decide

theorem witness_MicroOperationWords : (1 : BitVec 15) ≠ 0 ∧ (1 : BitVec 16) ≠ 0 := by decide

theorem witness_FrameBitHasTwoForms : 0 < 56 ∧ 55 < 56 := by decide

theorem witness_FrameBytesOfACommand : 0 < 7 ∧ 6 < 7 := by decide

theorem witness_BitTimerRunsAMicroProgram :
    (∀ m ∈ [MicroOp.setLevel true, .hold 3, .toggle, .hold 2], WellFormed m.toInstr = true)
    ∧ (programmed ([MicroOp.setLevel true, .hold 3, .toggle, .hold 2].map microWord)).phase = .idle
    ∧ (programmed ([MicroOp.setLevel true, .hold 3, .toggle, .hold 2].map microWord)).microProg
      = some ([MicroOp.setLevel true, .hold 3, .toggle, .hold 2].map microWord)
    ∧ (programmed ([MicroOp.setLevel true, .hold 3, .toggle, .hold 2].map microWord)).timer.toNat ≤ 1
    ∧ RstLow ((programmed ([MicroOp.setLevel true, .hold 3, .toggle, .hold 2].map microWord)).inputs.take
        (progTicks [.setLevel true, .hold 3, .toggle, .hold 2] + 1)) :=
  ⟨by decide, rfl, rfl, by decide, rstLow_quiet (by decide)⟩

/-- TransmissionTrace, TotalsOfABurst: the bounds of a legal symbol. -/
theorem witness_symbols :
    (1 ≤ (1 : BitVec 16).toNat ∧ (1 : BitVec 16).toNat ≤ 16383)
    ∧ (1 ≤ (16383 : BitVec 16).toNat ∧ (16383 : BitVec 16).toNat ≤ 16383) := by decide

theorem witness_ToggleSemanticsOfTheDataPhase :
    0 < 56 ∧ 55 < 56 ∧ 54 < 55 ∧ (⟨false, 1280⟩ : Seg) ∈ merge (dataTrace f0 640) := by decide

theorem witness_EveryDurationFitsTheHoldCounter :
    1 ≤ 16383 ∧ 16383 ≤ 16383 ∧ (⟨true, 65532⟩ : Seg) ∈ txTrace f0 7 16383
    ∧ (⟨false, 1⟩ : Seg) ∈ txTrace f0 0 1 := by decide

theorem witness_SequencerAgreesWithTheTraces :
    Presents (offeredAt 16383 0x2FFA71A2B3C4D5E6F) 0x2FFA71A2B3C4D5E6F
    ∧ decodeCommand 0x2FFA71A2B3C4D5E6F = .transmit 255 f0
    ∧ (1 ≤ (offeredAt 16383 0).symbol.toNat ∧ (offeredAt 16383 0).symbol.toNat ≤ 16383)
    ∧ RstLow ((offeredAt 16383 0x2FFA71A2B3C4D5E6F).inputs.take (txTicks 255 16383 + 1))
    ∧ Presents (offeredAt 1 0x100A71A2B3C4D5E6F) 0x100A71A2B3C4D5E6F
    ∧ decodeCommand 0x100A71A2B3C4D5E6F = .send f0
    ∧ (1 ≤ (offeredAt 1 0).symbol.toNat ∧ (offeredAt 1 0).symbol.toNat ≤ 16383)
    ∧ RstLow ((offeredAt 1 0x100A71A2B3C4D5E6F).inputs.take (sendTicks 1 + 1)) :=
  ⟨presents_offeredAt _ _, by decide, by decide, rstLow_offeredAt _ _ _, presents_offeredAt _ _, by decide, by decide,
    rstLow_offeredAt _ _ _⟩

theorem witness_TransmitRunsToIdle :
    Presents (offeredAt 640 0x200A71A2B3C4D5E6F) 0x200A71A2B3C4D5E6F
    ∧ decodeCommand 0x200A71A2B3C4D5E6F = .transmit 0 f0
    ∧ (1 ≤ (offeredAt 640 0).symbol.toNat ∧ (offeredAt 640 0).symbol.toNat ≤ 16383)
    ∧ RstLow ((offeredAt 640 0x200A71A2B3C4D5E6F).inputs.take (txTicks 0 640 + 1)) :=
  ⟨presents_offeredAt _ _, by decide, by decide, rstLow_offeredAt _ _ _⟩

theorem witness_SendRunsToIdle :
    Presents (offeredAt 640 0x100A71A2B3C4D5E6F) 0x100A71A2B3C4D5E6F
    ∧ decodeCommand 0x100A71A2B3C4D5E6F = .send f0
    ∧ (1 ≤ (offeredAt 640 0).symbol.toNat ∧ (offeredAt 640 0).symbol.toNat ≤ 16383)
    ∧ RstLow ((offeredAt 640 0x100A71A2B3C4D5E6F).inputs.take (sendTicks 640 + 1)) :=
  ⟨presents_offeredAt _ _, by decide, by decide, rstLow_offeredAt _ _ _⟩

theorem witness_LatencyAndSpacing :
    (offered 0x100A71A2B3C4D5E6F).Inv ∧ Presents (offered 0x100A71A2B3C4D5E6F) 0x100A71A2B3C4D5E6F
    ∧ (∃ frame, decodeCommand 0x100A71A2B3C4D5E6F = .send frame)
    ∧ RstLow ((offered 0x100A71A2B3C4D5E6F).inputs.take (sendTicks 640 + 1))
    ∧ (∃ n frame, decodeCommand 0x200A71A2B3C4D5E6F = .transmit n frame) :=
  ⟨inv_offered_send, presents_offered _, ⟨f0, by decide⟩, rstLow_offeredAt 640 _ _, ⟨0, f0, by decide⟩⟩

/-- A word presented, then quiet ticks, then one tick of reset: `rst` is first high `k` ticks after acceptance. -/
def cutAfter (w : CmdWord) (k : Nat) : State :=
  { State.reset with inputs := present w :: (quietFor (k - 1) ++ [resetting 0]) }

theorem cutAfter_rst (w : CmdWord) {k : Nat} (h : 1 ≤ k) :
    RstLow ((cutAfter w k).inputs.take k) ∧ (cutAfter w k).inputs[k]? = some (resetting 0) := by
  obtain ⟨j, rfl⟩ := Nat.exists_eq_add_of_le' h
  constructor
  · intro p hp
    simp only [cutAfter, quietFor, Nat.add_sub_cancel, List.take_succ_cons, List.mem_cons] at hp
    obtain rfl | hp := hp
    · rfl
    · rw [List.take_left' List.length_replicate] at hp
      rw [List.eq_of_mem_replicate hp]; rfl
  · simp [cutAfter, quietFor]

/-- At `k = 1`, and at `k = T`, for T0's TRANSMIT. -/
theorem witness_ResetCutsTheWaveform :
    (∀ k, Presents (cutAfter 0x200A71A2B3C4D5E6F k) 0x200A71A2B3C4D5E6F)
    ∧ decodeCommand 0x200A71A2B3C4D5E6F = .transmit 0 f0
    ∧ 1 ≤ 107285 ∧ 107285 ≤ traceTicks (txTrace f0 0 640)
    ∧ (∀ k ∈ [1, 107285], RstLow ((cutAfter 0x200A71A2B3C4D5E6F k).inputs.take k)
        ∧ (cutAfter 0x200A71A2B3C4D5E6F k).inputs[k]? = some (resetting 0)) ∧ (resetting 0).rst = true := by
  refine ⟨fun _ => ⟨rfl, rfl, rfl, rfl, rfl⟩, by decide, by decide, by decide, fun k hk => cutAfter_rst _ ?_, rfl⟩
  revert k; decide

/-- P4: the second and the third word presented at the first idle tick after the transmission before. -/
def threeTransmits : State :=
  { State.reset with inputs := present (2#2 ++ 2#8 ++ f0) :: (quietFor (txTicks 2 640)
      ++ present (2#2 ++ 7#8 ++ f0) :: (quietFor (txTicks 7 640) ++ present (2#2 ++ 7#8 ++ f0) :: [])) }

theorem witness_ThreeTransmitsAreNotASend :
    threeTransmits.phase = .idle ∧ threeTransmits.microProg = none
    ∧ (1 ≤ threeTransmits.symbol.toNat ∧ threeTransmits.symbol.toNat ≤ 16383)
    ∧ (quietFor (txTicks 2 640)).length = txTicks 2 640 ∧ (quietFor (txTicks 7 640)).length = txTicks 7 640
    ∧ RstLow (quietFor (txTicks 2 640)) ∧ RstLow (quietFor (txTicks 7 640)) ∧ RstLow ([].take (txTicks 7 640))
    ∧ threeTransmits.inputs = { rst := false, cmdValid := true, cmd := 2#2 ++ 2#8 ++ f0 } :: (quietFor (txTicks 2 640)
      ++ { rst := false, cmdValid := true, cmd := 2#2 ++ 7#8 ++ f0 } :: (quietFor (txTicks 7 640)
      ++ { rst := false, cmdValid := true, cmd := 2#2 ++ 7#8 ++ f0 } :: [])) :=
  ⟨rfl, rfl, by decide, List.length_replicate, List.length_replicate,
    rstLow_quiet fun _ h => List.eq_of_mem_replicate h, rstLow_quiet fun _ h => List.eq_of_mem_replicate h,
    rstLow_quiet (by simp), rfl⟩

end Sys2Proof.Tests
end

/-! ## How a trace depends on the symbol (R6) -/

section
namespace Sys2Proof.Machine

/-- R6 for one position of two traces, with symbols `a` and `b`: one level, and the durations are one fixed constant,
or the symbols, or four times the symbols. -/
def ScalesWith (a b : Nat) (g h : Seg) : Prop :=
  g.level = h.level
    ∧ ((g.ticks = h.ticks ∧ g.ticks ∈ [9415, 24030, 65535, 4550, 30415])
      ∨ (g.ticks = a ∧ h.ticks = b) ∨ (g.ticks = 4 * a ∧ h.ticks = 4 * b))

theorem scalesWith_fixed (a b : Nat) (l : Level) {t : Nat} (h : t ∈ [9415, 24030, 65535, 4550, 30415]) :
    ScalesWith a b ⟨l, t⟩ ⟨l, t⟩ := ⟨rfl, .inl ⟨rfl, h⟩⟩

theorem scalesWith_symbol (a b : Nat) (l : Level) : ScalesWith a b ⟨l, a⟩ ⟨l, b⟩ :=
  ⟨rfl, .inr (.inl ⟨rfl, rfl⟩)⟩

theorem scalesWith_syncMult (a b : Nat) (l : Level) : ScalesWith a b ⟨l, syncMult * a⟩ ⟨l, syncMult * b⟩ :=
  ⟨rfl, .inr (.inr ⟨rfl, rfl⟩)⟩

/-- Repeating related pieces the same number of times gives related lists: the sync pulses of R62. -/
theorem forall₂_flatten_replicate {α β : Type} {R : α → β → Prop} {xs : List α} {ys : List β}
    (h : List.Forall₂ R xs ys) (n : Nat) :
    List.Forall₂ R (List.replicate n xs).flatten (List.replicate n ys).flatten := by
  induction n with
  | zero => exact .nil
  | succ n ih =>
    rw [List.replicate_succ, List.replicate_succ, List.flatten_cons, List.flatten_cons]
    exact List.rel_append h ih

/-- Both halves of every data bit last one symbol (R64), and their levels are the frame's alone. -/
theorem dataTrace_scalesWith (frame : FrameWord) (a b : Nat) :
    List.Forall₂ (ScalesWith a b) (dataTrace frame a) (dataTrace frame b) := by
  refine List.rel_flatMap (R := Eq) (List.forall₂_same.2 fun _ _ => rfl) ?_
  rintro i _ rfl
  exact .cons (scalesWith_symbol a b _) (.cons (scalesWith_symbol a b _) .nil)

theorem txTrace_scalesWith (frame : FrameWord) (n a b : Nat) :
    List.Forall₂ (ScalesWith a b) (txTrace frame n a) (txTrace frame n b) := by
  have fixed (l : Level) {t : Nat} (h : t ∈ [9415, 24030, 65535, 4550, 30415]) := scalesWith_fixed a b l h
  have pulse (l : Level) := scalesWith_syncMult a b l
  refine List.rel_append (List.rel_append (List.rel_append (List.rel_append ?wake ?sync) ?start)
    (dataTrace_scalesWith frame a b)) ?silence
  case wake =>
    split
    · exact .cons (fixed _ (by decide)) (.cons (fixed _ (by decide)) (.cons (fixed _ (by decide)) .nil))
    · exact .nil
  case sync => exact forall₂_flatten_replicate (.cons (pulse _) (.cons (pulse _) .nil)) n
  case start => exact .cons (fixed _ (by decide)) (.cons (scalesWith_symbol a b _) .nil)
  case silence => exact .cons (fixed _ (by decide)) .nil

/-- Settles O45, phase by phase: every segment of R61 to R66 is fixed, one symbol, or four symbols long. -/
theorem fixedDurationsDoNotScale : Obligations.FixedDurationsDoNotScale := txTrace_scalesWith

end Sys2Proof.Machine
end

/-! ## The reset state, the frame's bytes, and the registers of a busy block -/

section
namespace Sys2Proof.Machine

/-- Settles O1: the values of R10's last column, and the outputs that follow from them (R24). -/
theorem resetStateValues : Obligations.ResetStateValues :=
  ⟨rfl, rfl, rfl, rfl, rfl, rfl, rfl, rfl, rfl, rfl, rfl, rfl, fun _ => rfl⟩

/-- Byte `k` of a command's frame lies at the same bits of the command word, since `frame` is its low field. -/
theorem frameByte_cmdFrame (w : CmdWord) (k : Nat) : frameByte (cmdFrame w) k = w.extractLsb' (48 - 8 * k) 8 :=
  BitVec.extractLsb'_extractLsb'_of_le (by omega)

/-- Byte `k`, written after the bits above it, extends them by the byte's place (R12). -/
theorem high_append_frameByte (frame : FrameWord) (n : Nat) {k : Nat} (h : k < 7) :
    frame.extractLsb' (56 - 8 * k) n ++ frameByte frame k = frame.extractLsb' (48 - 8 * k) (n + 8) :=
  BitVec.extractLsb'_append_extractLsb'_eq_extractLsb' (by omega)

theorem frameBytes_append (frame : FrameWord) :
    frameByte frame 0 ++ frameByte frame 1 ++ frameByte frame 2 ++ frameByte frame 3
      ++ frameByte frame 4 ++ frameByte frame 5 ++ frameByte frame 6 = frame := by
  have high {k : Nat} (n : Nat) (h : k < 7) := high_append_frameByte frame n h
  have b0 : frameByte frame 0 = frame.extractLsb' (56 - 8 * 1) 8 := rfl
  rw [b0, high 8 (k := 1) (by decide), high 16 (k := 2) (by decide), high 24 (k := 3) (by decide),
    high 32 (k := 4) (by decide), high 40 (k := 5) (by decide), high 48 (k := 6) (by decide)]
  exact BitVec.extractLsb'_eq_self

/-- Settles O36, the two parts by `frameByte_cmdFrame` and `frameBytes_append`. -/
theorem frameBytesOfACommand : Obligations.FrameBytesOfACommand :=
  ⟨fun w k _ => frameByte_cmdFrame w k, frameBytes_append⟩

/-- The hold counter touches neither the frame nor the symbol, whether it counts down or the phase expires. -/
theorem holdCounter_frame_symbol (s : State) :
    (holdCounter s).frame = s.frame ∧ (holdCounter s).symbol = s.symbol := by
  by_cases ht : 1 < s.timer.toNat
  · rw [holdCounter_of_lt ht]; exact ⟨rfl, rfl⟩
  · rw [holdCounter_of_not_lt ht]
    obtain ⟨hframe, hsymbol, -⟩ := expire_frame s
    exact ⟨hframe, hsymbol⟩

/-- Settles O28: a busy block's step is its hold counter's, which keeps both registers. -/
theorem busyBlockKeepsFrameAndSymbol : Obligations.BusyBlockKeepsFrameAndSymbol := by
  intro s busy seq low
  obtain ⟨hframe, hsymbol⟩ := holdCounter_frame_symbol s.advance
  exact ⟨_, step_of_busy low seq busy, hsymbol, hframe, fun k _ => congrArg (frameByte · k) hframe⟩

end Sys2Proof.Machine
end

/-! ## The invariants of R23: one part for the whole command, one part for each phase -/

section
namespace Sys2Proof.Machine

/-- The invariants (d), (g) and (i) of R23, which hold throughout a command, and the sequencer's hold on the Bit
Timer. -/
structure State.CommandInv (s : State) : Prop where
  sequencer : s.microProg = none
  symbol_legal : 1 ≤ s.symbol.toNat ∧ s.symbol.toNat ≤ 16383
  tx_le : s.txIdx.toNat ≤ 2 ∧ (s.burst = false → s.txIdx = 0)
  burst_sync : s.burst = true → s.phase ≠ .idle → s.sync = if s.txIdx = 0 then 2 else 7

/-- The invariants (b), (c), (e), (f), (h) and (j) of R23, read off at the phase the block is in. -/
def State.PhaseInv (s : State) : Prop :=
  match s.phase with
  | .idle => s.timer = 0 ∧ s.line = false
  | .wakeHi => s.timer ≠ 0 ∧ s.sync = 2 ∧ s.line = true
  | .wakeLo => s.timer ≠ 0 ∧ s.sync = 2 ∧ s.line = false
  | .wakeLo2 => s.timer ≠ 0 ∧ s.sync = 2 ∧ s.line = false
  | .syncHi => s.timer ≠ 0 ∧ s.syncIdx.toNat < s.sync.toNat ∧ s.line = true
  | .syncLo => s.timer ≠ 0 ∧ s.syncIdx.toNat < s.sync.toNat ∧ s.line = false
  | .startHi => s.timer ≠ 0 ∧ s.line = true
  | .startLo => s.timer ≠ 0 ∧ s.line = false
  | .dataA => s.timer ≠ 0 ∧ s.bitIdx.toNat ≤ 55 ∧ s.line = !frameBit s.frame s.bitIdx.toNat
  | .dataB => s.timer ≠ 0 ∧ s.bitIdx.toNat ≤ 55 ∧ s.line = frameBit s.frame s.bitIdx.toNat
  | .silence => s.timer ≠ 0 ∧ s.line = false

theorem Phase.code_le (p : Phase) : p.code.toNat ≤ 10 := by
  cases p <;> decide

/-- What the invariants (a) to (j) say of the phase the block is in. -/
theorem State.Inv.phaseInv {s : State} (h : s.Inv) : s.PhaseInv := by
  have running (busy : s.phase ≠ .idle) : s.timer ≠ 0 := fun ht => busy (h.idle_iff.2 ht)
  unfold PhaseInv
  cases hp : s.phase <;> rw [hp] at running
  case idle => exact ⟨h.idle_iff.1 hp, h.line_low (by simp [hp])⟩
  case wakeHi => exact ⟨running nofun, h.wake_sync (by simp [hp]), h.line_high (by simp [hp])⟩
  case wakeLo | wakeLo2 => exact ⟨running nofun, h.wake_sync (by simp [hp]), h.line_low (by simp [hp])⟩
  case syncHi => exact ⟨running nofun, h.sync_lt (by simp [hp]), h.line_high (by simp [hp])⟩
  case syncLo => exact ⟨running nofun, h.sync_lt (by simp [hp]), h.line_low (by simp [hp])⟩
  case startHi => exact ⟨running nofun, h.line_high (by simp [hp])⟩
  case startLo | silence => exact ⟨running nofun, h.line_low (by simp [hp])⟩
  case dataA => exact ⟨running nofun, h.bit_le (by simp [hp]), h.line_dataA hp⟩
  case dataB => exact ⟨running nofun, h.bit_le (by simp [hp]), h.line_dataB hp⟩

/-- (b) and (c): TIMER is 0 in the idle state and in no other phase. -/
theorem State.PhaseInv.idle_iff {s : State} (h : s.PhaseInv) : s.phase = .idle ↔ s.timer = 0 := by
  unfold PhaseInv at h
  cases hp : s.phase <;> rw [hp] at h
  case idle => exact iff_of_true rfl h.1
  all_goals exact iff_of_false nofun h.1

/-- The two parts together are the invariants (a) to (j). -/
theorem State.inv_iff (s : State) : s.Inv ↔ s.CommandInv ∧ s.PhaseInv := by
  refine ⟨fun h => ⟨⟨h.sequencer, h.symbol_legal, h.tx_le, h.burst_sync⟩, h.phaseInv⟩, ?_⟩
  rintro ⟨⟨seq, sym, tx, burst⟩, hphase⟩
  refine ⟨seq, s.phase.code_le, hphase.idle_iff, sym, ?_, ?_, tx, ?_, burst, ?_, ?_, ?_, ?_⟩
  all_goals
    unfold PhaseInv at hphase
    split at hphase
    all_goals simp [*]

/-- A change of phase of a busy block that leaves the command's registers alone keeps the command's part. -/
theorem State.CommandInv.of_eq {s t : State} (h : s.CommandInv) (busy : s.phase ≠ .idle)
    (hmicro : t.microProg = s.microProg) (hsymbol : t.symbol = s.symbol) (htx : t.txIdx = s.txIdx)
    (hburst : t.burst = s.burst) (hsync : t.sync = s.sync) : t.CommandInv := by
  obtain ⟨seq, sym, tx, burst⟩ := h
  constructor
  · rw [hmicro, seq]
  · rwa [hsymbol]
  · rwa [htx, hburst]
  · rw [htx, hburst, hsync]; exact fun hb _ => burst hb busy

/-! ### The holds the sequencer loads are not 0 (R56) -/

theorem tWakeHi_ne_zero : tWakeHi ≠ 0 := by decide
theorem tWakeLo_ne_zero : tWakeLo ≠ 0 := by decide
theorem tWakeLo2_ne_zero : tWakeLo2 ≠ 0 := by decide
theorem tStartHi_ne_zero : tStartHi ≠ 0 := by decide
theorem tSilence_ne_zero : tSilence ≠ 0 := by decide

theorem symbol_ne_zero {symbol : BitVec 16} (h : 1 ≤ symbol.toNat) : symbol ≠ 0 := by
  rintro rfl
  exact absurd h (by decide)

theorem syncHold_ne_zero {symbol : BitVec 16} (h : 1 ≤ symbol.toNat ∧ symbol.toNat ≤ 16383) :
    syncHold symbol ≠ 0 := by
  obtain ⟨hmin, hmax⟩ := h
  refine symbol_ne_zero ?_
  rw [syncHold_toNat hmax]
  omega

/-! ### Reset and the ticks that move no phase -/

/-- Settles O25: each invariant at the reset values (R23, R24). -/
theorem resetMeetsTheInvariants : Obligations.ResetMeetsTheInvariants :=
  State.reset.inv_iff.2 ⟨⟨rfl, by decide, by decide, nofun⟩, rfl, rfl⟩

/-- No invariant speaks of the host's inputs. -/
theorem State.Inv.withInputs {s : State} (h : s.Inv) (ps : List PortIn) : ({ s with inputs := ps } : State).Inv := by
  obtain ⟨hcmd, hphase⟩ := s.inv_iff.1 h
  exact (State.inv_iff _).2 ⟨⟨hcmd.1, hcmd.2, hcmd.3, hcmd.4⟩, hphase⟩

theorem State.Inv.advance {s : State} (h : s.Inv) : s.advance.Inv := h.withInputs _

theorem inv_applyReset (s : State) : (applyReset s).Inv := resetMeetsTheInvariants.withInputs _

/-- SETSYM's effect on an idle block: no invariant but (d) speaks of SYMBOL (R83). -/
theorem State.Inv.withSymbol {s : State} (h : s.Inv) {n : BitVec 16} (hn : symbolLegal n = true) :
    ({ s with symbol := n } : State).Inv := by
  obtain ⟨hcmd, hphase⟩ := s.inv_iff.1 h
  exact (State.inv_iff _).2 ⟨⟨hcmd.1, (symbolLegal_iff n).1 hn, hcmd.3, hcmd.4⟩, hphase⟩

/-- A tick of a hold that goes on leaves TIMER above 0 (R94). -/
theorem State.Inv.countDown {s : State} (h : s.Inv) (ht : 1 < s.timer.toNat) : (opCountDown s).Inv := by
  have running : s.timer - 1 ≠ 0 := by bv_omega
  have busy : s.phase ≠ .idle := by
    intro hi
    rw [h.idle_iff.1 hi] at ht
    exact absurd ht (by decide)
  obtain ⟨hcmd, hphase⟩ := s.inv_iff.1 h
  refine (State.inv_iff _).2 ⟨hcmd.of_eq busy rfl rfl rfl rfl rfl, ?_⟩
  unfold PhaseInv at hphase ⊢
  rw [opCountDown_phase]
  cases hp : s.phase <;> rw [hp] at hphase
  case idle => contradiction
  all_goals exact ⟨running, hphase.2⟩

/-! ### Where a transmission begins (R93) -/

/-- `begin_tx` of the latched sync count enters a phase that meets its invariants. -/
theorem inv_beginTx {s : State} (seq : s.microProg = none) (sym : 1 ≤ s.symbol.toNat ∧ s.symbol.toNat ≤ 16383)
    (tx : s.txIdx.toNat ≤ 2 ∧ (s.burst = false → s.txIdx = 0))
    (burst : s.burst = true → s.sync = if s.txIdx = 0 then 2 else 7) : (beginTx s.sync s).Inv := by
  have hcmd : (beginTx s.sync s).CommandInv := by
    obtain ⟨-, hsync, hsymbol, -, htx, hburst, -, hmicro, -⟩ := beginTx_frame s.sync s
    constructor
    · rw [hmicro, seq]
    · rwa [hsymbol]
    · rwa [htx, hburst]
    · rw [htx, hburst, hsync]; exact fun hb _ => burst hb
  refine (State.inv_iff _).2 ⟨hcmd, ?_⟩
  obtain ⟨h2, h⟩ | ⟨-, h0, h⟩ | ⟨-, h⟩ := beginTx_cases s.sync s
  · rw [h]; exact ⟨tWakeHi_ne_zero, h2, rfl⟩
  · have pulses : 0 < s.sync.toNat := by bv_omega
    rw [h]; exact ⟨syncHold_ne_zero sym, pulses, rfl⟩
  · rw [h]; exact ⟨tStartHi_ne_zero, rfl⟩

/-! ### Where a phase expires (R95 to R104) -/

/-- R99: after a sync pulse either the next pulse, still within SYNC, or the frame start. -/
theorem inv_expireSyncLo {s : State} (hp : s.phase = .syncLo) (h : s.CommandInv) : (expireSyncLo s).Inv := by
  have busy : s.phase ≠ .idle := by simp [hp]
  unfold expireSyncLo
  split
  case isTrue next =>
    refine (State.inv_iff _).2 ⟨h.of_eq busy rfl rfl rfl rfl rfl, syncHold_ne_zero h.symbol_legal, ?_, rfl⟩
    show (s.syncIdx + 1).toNat < s.sync.toNat
    bv_omega
  case isFalse => exact (State.inv_iff _).2 ⟨h.of_eq busy rfl rfl rfl rfl rfl, tStartHi_ne_zero, rfl⟩

/-- R103: after a data bit either the next bit, still within the frame, or the silence. -/
theorem inv_expireDataB {s : State} (hp : s.phase = .dataB) (h : s.CommandInv) : (expireDataB s).Inv := by
  have busy : s.phase ≠ .idle := by simp [hp]
  unfold expireDataB
  split
  case isTrue next =>
    refine (State.inv_iff _).2 ⟨h.of_eq busy rfl rfl rfl rfl rfl, symbol_ne_zero h.symbol_legal.1, ?_, rfl⟩
    show (s.bitIdx + 1).toNat ≤ 55
    rw [nBits] at next
    bv_omega
  case isFalse => exact (State.inv_iff _).2 ⟨h.of_eq busy rfl rfl rfl rfl rfl, tSilence_ne_zero, rfl⟩

/-- R104: the silence ends in a repeat with the sync count 7, or in the idle state with the line LOW. -/
theorem inv_expireSilence {s : State} (h : s.CommandInv) (low : s.line = false) : (expireSilence s).Inv := by
  obtain ⟨seq, sym, tx, -⟩ := h
  by_cases again : s.burst = true ∧ s.txIdx.toNat < 2
  · obtain ⟨hb, ht⟩ := again
    rw [expireSilence_repeat hb ht]
    refine inv_beginTx (s := { s with txIdx := s.txIdx + 1, sync := syncRepeat }) seq sym ⟨?_, ?_⟩ fun _ => ?_
    · show (s.txIdx + 1).toNat ≤ 2
      bv_omega
    · show s.burst = false → _
      simp [hb]
    · have : s.txIdx + 1 ≠ 0 := by bv_omega
      exact (if_neg this).symm
  · rw [expireSilence_end again]
    exact (State.inv_iff _).2 ⟨⟨seq, sym, tx, fun _ busy => absurd rfl busy⟩, rfl, low⟩

theorem State.Inv.expire {s : State} (h : s.Inv) (busy : s.phase ≠ .idle) : (expire s).Inv := by
  obtain ⟨hcmd, hphase⟩ := s.inv_iff.1 h
  have hsymbol := symbol_ne_zero hcmd.symbol_legal.1
  have hsync := syncHold_ne_zero hcmd.symbol_legal
  unfold PhaseInv at hphase
  cases hp : s.phase <;> rw [hp] at hphase <;> rw [expire_eq hp]
  case idle => contradiction
  case syncLo => exact inv_expireSyncLo hp hcmd
  case dataB => exact inv_expireDataB hp hcmd
  case silence => exact inv_expireSilence hcmd hphase.2
  all_goals refine (State.inv_iff _).2 ⟨hcmd.of_eq busy rfl rfl rfl rfl rfl, ?_⟩
  case wakeHi => exact ⟨tWakeLo_ne_zero, hphase.2.1, rfl⟩
  case wakeLo => exact ⟨tWakeLo2_ne_zero, hphase.2⟩
  case wakeLo2 =>
    obtain ⟨-, two, -⟩ := hphase
    have pulses : 0 < s.sync.toNat := by rw [two]; decide
    exact ⟨hsync, pulses, rfl⟩
  case syncHi => exact ⟨hsync, hphase.2.1, rfl⟩
  case startHi => exact ⟨hsymbol, rfl⟩
  case startLo => exact ⟨hsymbol, Nat.zero_le _, rfl⟩
  case dataA =>
    obtain ⟨-, hbit, first⟩ := hphase
    have second : (!s.line) = frameBit s.frame s.bitIdx.toNat := by rw [first, Bool.not_not]
    exact ⟨hsymbol, hbit, second⟩

/-- Settles O26, by the cases of a step: a reset, a tick that moves no phase, the beginning of a transmission, or the
expiry of a phase. -/
theorem everyStepKeepsTheInvariants : Obligations.EveryStepKeepsTheInvariants := by
  intro s t h hstep
  obtain ⟨-, rfl⟩ | ⟨-, -, rfl⟩ | ⟨-, -, n, hn, rfl⟩ | ⟨-, -, f, n, b, hb, rfl⟩ | ⟨-, -, ht, rfl⟩
    | ⟨-, busy, -, rfl⟩ := step_cases h.sequencer hstep
  · exact inv_applyReset _
  · exact h.advance
  · exact h.advance.withSymbol hn
  · exact inv_beginTx (s := opLatch f b n s.advance) h.sequencer h.symbol_legal ⟨by simp, fun _ => rfl⟩ hb
  · exact h.advance.countDown ht
  · exact h.advance.expire busy

end Sys2Proof.Machine
end

/-! ## A data bit as a bit of the frame register (R32) -/

section
namespace Sys2Proof.Machine

/-- Bit `j` of byte `k` in the register: the byte begins at bit `48 - 8k` (R12, R31). -/
theorem getLsbD_frameByte (frame : FrameWord) (k : Nat) {j : Nat} (h : j < 8) :
    (frameByte frame k).getLsbD j = frame.getLsbD (48 - 8 * k + j) := by
  rw [frameByte, BitVec.getLsbD_extractLsb', decide_eq_true h, Bool.true_and]

theorem frameBit_eq_getLsbD (frame : FrameWord) {i : Nat} (h : i < 56) :
    frameBit frame i = frame.getLsbD (55 - i) := by
  have place : 48 - 8 * (i / 8) + (7 - i % 8) = 55 - i := by omega
  calc frameBit frame i
    _ = (frameByte frame (i / 8)).getLsbD (7 - i % 8) := by rw [frameBit, BitVec.getLsbD_ushiftRight, Nat.add_zero]
    _ = frame.getLsbD (48 - 8 * (i / 8) + (7 - i % 8)) := getLsbD_frameByte frame _ (by omega)
    _ = frame.getLsbD (55 - i) := by rw [place]

/-- Settles O35: the first form is the definition of `frameBit`, the second is `frameBit_eq_getLsbD`. -/
theorem frameBitHasTwoForms : Obligations.FrameBitHasTwoForms :=
  fun frame _ h => ⟨rfl, frameBit_eq_getLsbD frame h⟩

end Sys2Proof.Machine
end

/-! ## The fields of a command word, and the row each word selects (R41, R43, R44) -/

section
namespace Sys2Proof

@[simp] theorem cmdOp_append (op : BitVec 2) (x : BitVec 64) : cmdOp (op ++ x) = op :=
  BitVec.extractLsb'_append_eq_left

@[simp] theorem cmdOp_append_frame (op : BitVec 2) (sync : BitVec 8) (frame : FrameWord) :
    cmdOp (op ++ sync ++ frame) = op :=
  (BitVec.extractLsb'_append_eq_of_le (by decide)).trans BitVec.extractLsb'_append_eq_left

@[simp] theorem cmdSync_append_frame (op : BitVec 2) (sync : BitVec 8) (frame : FrameWord) :
    cmdSync (op ++ sync ++ frame) = sync :=
  (BitVec.extractLsb'_append_eq_of_le (by decide)).trans BitVec.extractLsb'_append_eq_right

@[simp] theorem cmdFrame_append_frame (op : BitVec 2) (sync : BitVec 8) (frame : FrameWord) :
    cmdFrame (op ++ sync ++ frame) = frame :=
  BitVec.extractLsb'_append_eq_right

@[simp] theorem cmdOp_append_imm16 (op : BitVec 2) (x : BitVec 48) (imm : BitVec 16) :
    cmdOp (op ++ x ++ imm) = op :=
  (BitVec.extractLsb'_append_eq_of_le (by decide)).trans BitVec.extractLsb'_append_eq_left

@[simp] theorem cmdImm16_append_imm16 (op : BitVec 2) (x : BitVec 48) (imm : BitVec 16) :
    cmdImm16 (op ++ x ++ imm) = imm :=
  BitVec.extractLsb'_append_eq_right

/-- `op`, `sync` and `frame` are the whole word (R41). -/
theorem cmdFields_append (w : CmdWord) : cmdOp w ++ cmdSync w ++ cmdFrame w = w :=
  calc cmdOp w ++ cmdSync w ++ cmdFrame w
    _ = w.extractLsb' 56 10 ++ w.extractLsb' 0 56 :=
      congrArg (· ++ cmdFrame w) (BitVec.extractLsb'_append_extractLsb'_eq_extractLsb' rfl)
    _ = w := BitVec.extractLsb'_append_extractLsb'

theorem decodeCommand_of_op_zero {w : CmdWord} (h : cmdOp w = 0) : decodeCommand w = .nop :=
  if_pos h

theorem decodeCommand_of_op_one {w : CmdWord} (h : cmdOp w = 1) : decodeCommand w = .send (cmdFrame w) := by
  rw [decodeCommand, h]; rfl

theorem decodeCommand_of_op_two {w : CmdWord} (h : cmdOp w = 2) :
    decodeCommand w = .transmit (cmdSync w) (cmdFrame w) := by
  rw [decodeCommand, h]; rfl

theorem decodeCommand_of_op_three {w : CmdWord} (h : cmdOp w = 3) : decodeCommand w = .setsym (cmdImm16 w) := by
  rw [decodeCommand, h]; rfl

/-- The field `op` of a command's word (R43); a micro-operation has none. -/
def commandOp : Instr → Option (BitVec 2)
  | .nop => some 0
  | .send _ => some 1
  | .transmit _ _ => some 2
  | .setsym _ => some 3
  | .hold _ | .setLevel _ | .toggle => none

/-- What a command word decodes to tells its `op`. -/
theorem commandOp_decodeCommand (w : CmdWord) : commandOp (decodeCommand w) = some (cmdOp w) := by
  have four : ∀ op : BitVec 2, op = 0 ∨ op = 1 ∨ op = 2 ∨ op = 3 := by decide
  obtain h | h | h | h := four (cmdOp w)
  · rw [decodeCommand_of_op_zero h, h]; rfl
  · rw [decodeCommand_of_op_one h, h]; rfl
  · rw [decodeCommand_of_op_two h, h]; rfl
  · rw [decodeCommand_of_op_three h, h]; rfl

/-- The table's command mask keeps `op` and clears the rest (R43). -/
theorem and_opMask (w : CmdWord) : w &&& 0x30000000000000000#66 = cmdOp w ++ 0#64 := by
  have fields : cmdOp w ++ w.extractLsb' 0 64 = w := BitVec.extractLsb'_append_extractLsb'
  calc w &&& 0x30000000000000000#66
    _ = (cmdOp w ++ w.extractLsb' 0 64) &&& (BitVec.allOnes 2 ++ 0#64) := by rw [fields]; rfl
    _ = (cmdOp w &&& BitVec.allOnes 2) ++ (w.extractLsb' 0 64 &&& 0#64) := BitVec.and_append
    _ = cmdOp w ++ 0#64 := by rw [BitVec.and_allOnes, BitVec.and_zero]

/-- A row whose match is `op` above 64 zeros is selected exactly by the words that decode to its command. -/
theorem and_opMask_eq_iff_decodeCommand {w v : CmdWord} {op : BitVec 2} {i : Instr} (hv : v = op ++ 0#64)
    (hi : commandOp i = some op) (hdec : cmdOp w = op → decodeCommand w = i) :
    w &&& 0x30000000000000000#66 = v ↔ decodeCommand w = i := by
  rw [and_opMask, hv, BitVec.append_left_inj]
  refine ⟨hdec, fun h => ?_⟩
  rw [← h, commandOp_decodeCommand] at hi
  exact Option.some.inj hi

/-- Settles O31: the mask leaves `op`, and `op` and the decoded command determine each other. -/
theorem everyCommandWordSelectsOneRow : Obligations.EveryCommandWordSelectsOneRow := fun _ =>
  ⟨and_opMask_eq_iff_decodeCommand (op := 0) (by decide) rfl decodeCommand_of_op_zero,
    and_opMask_eq_iff_decodeCommand (op := 1) (by decide) rfl decodeCommand_of_op_one,
    and_opMask_eq_iff_decodeCommand (op := 2) (by decide) rfl decodeCommand_of_op_two,
    and_opMask_eq_iff_decodeCommand (op := 3) (by decide) rfl decodeCommand_of_op_three⟩

/-! ### Words written out by fields -/

theorem decodeCommand_nop_word (x : BitVec 64) : decodeCommand (0#2 ++ x) = .nop :=
  decodeCommand_of_op_zero (cmdOp_append 0#2 x)

theorem decodeCommand_send_word (x : BitVec 8) (frame : FrameWord) :
    decodeCommand (1#2 ++ x ++ frame) = .send frame := by
  rw [decodeCommand_of_op_one (cmdOp_append_frame 1#2 x frame), cmdFrame_append_frame]

theorem decodeCommand_transmit_word (sync : BitVec 8) (frame : FrameWord) :
    decodeCommand (2#2 ++ sync ++ frame) = .transmit sync frame := by
  rw [decodeCommand_of_op_two (cmdOp_append_frame 2#2 sync frame), cmdSync_append_frame, cmdFrame_append_frame]

theorem decodeCommand_setsym_word (x : BitVec 48) (imm : BitVec 16) :
    decodeCommand (3#2 ++ x ++ imm) = .setsym imm := by
  rw [decodeCommand_of_op_three (cmdOp_append_imm16 3#2 x imm), cmdImm16_append_imm16]

/-- TRANSMIT has no unused bit: its operands and `op` give the word back (R44). -/
theorem eq_of_decodeCommand_eq_of_op_two {w v : CmdWord} (h : decodeCommand w = decodeCommand v)
    (hw : cmdOp w = 2) : w = v := by
  have hop : cmdOp w = cmdOp v := by
    simpa [commandOp_decodeCommand] using congrArg commandOp h
  rw [decodeCommand_of_op_two hw, decodeCommand_of_op_two (hop ▸ hw)] at h
  obtain ⟨hsync, hframe⟩ := Instr.transmit.inj h
  rw [← cmdFields_append w, hop, hsync, hframe, cmdFields_append]

/-- Settles O32, a clause for each command. -/
theorem unusedFieldsAreIgnored : Obligations.UnusedFieldsAreIgnored :=
  ⟨decodeCommand_nop_word, decodeCommand_send_word, decodeCommand_setsym_word,
    fun _ _ => eq_of_decodeCommand_eq_of_op_two⟩

end Sys2Proof
end

/-! ## Micro-operation words, and the round trip of both formats (R45, R46) -/

section
namespace Sys2Proof

@[simp] theorem uopKind_append (kind : BitVec 2) (arg : BitVec 16) : uopKind (kind ++ arg) = kind :=
  BitVec.extractLsb'_append_eq_left

@[simp] theorem uopArg_append (kind : BitVec 2) (arg : BitVec 16) : uopArg (kind ++ arg) = arg :=
  BitVec.extractLsb'_append_eq_right

theorem decodeMicro_hold_word (d : Duration) : decodeMicro (0#2 ++ d) = .ok (.hold d) := by
  rw [decodeMicro, uopKind_append, uopArg_append]; rfl

/-- A word of kind 1, its argument split into bits 15:1 and bit 0. -/
theorem decodeMicro_setLevel_word (a : BitVec 15) (l : Bool) :
    decodeMicro (1#2 ++ a ++ BitVec.ofBool l) = if a = 0 then .ok (.setLevel l) else .error .setLevelHighBits := by
  have word : 1#2 ++ a ++ BitVec.ofBool l = 1#2 ++ (a ++ BitVec.ofBool l) := BitVec.append_assoc
  have high : (a ++ BitVec.ofBool l).extractLsb' 1 15 = a := BitVec.extractLsb'_append_eq_left
  have low : (a ++ BitVec.ofBool l).getLsbD 0 = l := by rw [BitVec.append_ofBool, BitVec.getLsbD_concat_zero]
  rw [word, decodeMicro, uopKind_append, uopArg_append, high, low]; rfl

theorem decodeMicro_toggle_word (a : BitVec 16) :
    decodeMicro (2#2 ++ a) = if a = 0 then .ok .toggle else .error .toggleArgument := by
  rw [decodeMicro, uopKind_append, uopArg_append]; rfl

theorem decodeMicro_kind_three_word (a : BitVec 16) : decodeMicro (3#2 ++ a) = .error .microKindThree := by
  rw [decodeMicro, uopKind_append]; rfl

/-- Settles O33: the word of each kind, by its argument. -/
theorem microOperationWords : Obligations.MicroOperationWords :=
  ⟨decodeMicro_hold_word, decodeMicro_setLevel_word 0, decodeMicro_toggle_word 0,
    fun a l h => (decodeMicro_setLevel_word a l).trans (if_neg h),
    fun a h => (decodeMicro_toggle_word a).trans (if_neg h), decodeMicro_kind_three_word⟩

/-- Settles O30: each instruction's word decodes to it. No clause needs `WellFormed`, since `hold 0` has a word too. -/
theorem decodeOfEncode : Obligations.DecodeOfEncode := by
  intro i _
  cases i with
  | nop => exact congrArg Except.ok (decodeCommand_of_op_zero (cmdOp_append_frame 0#2 0 0))
  | send frame => exact congrArg Except.ok (decodeCommand_send_word 0 frame)
  | transmit sync frame => exact congrArg Except.ok (decodeCommand_transmit_word sync frame)
  | setsym imm => exact congrArg Except.ok (decodeCommand_setsym_word 0 imm)
  | hold d => exact decodeMicro_hold_word d
  | setLevel l => exact decodeMicro_setLevel_word 0 l
  | toggle => exact decodeMicro_toggle_word 0

/-- Settles O34: each vector's word is one of the words written out by fields. -/
theorem wordsOfTheTestVectors : Obligations.WordsOfTheTestVectors :=
  ⟨decodeCommand_nop_word 0, decodeCommand_send_word 0 0xA71A2B3C4D5E6F,
    decodeCommand_transmit_word 7 0xA71A2B3C4D5E6F,
    decodeCommand_transmit_word 255 0, decodeCommand_setsym_word 0 640, decodeCommand_send_word 0xFF 0xA71A2B3C4D5E6F,
    decodeCommand_setsym_word 0xABCDEF012345 640, decodeCommand_nop_word 0xFFFFFFFFFFFFFFFF,
    decodeMicro_setLevel_word 0 true, decodeMicro_toggle_word 0, decodeMicro_hold_word 9415⟩

end Sys2Proof
end

/-! ## The step and the instruction it runs (R40, R45, R50) -/

section
namespace Sys2Proof.Machine

/-- Settles O4: an idle block accepts the word on its port. -/
theorem stepRunsPresentedCommand : Obligations.StepRunsPresentedCommand := by
  intro s w i ⟨idle, seq, low, valid, word⟩ hdec
  have hi : decodeCommand s.port.cmd = i := by rw [word]; exact Except.ok.inj hdec
  rw [step_of_idle low seq idle, acceptCommand, if_pos valid, hi]

/-- Settles O5: with no hold in progress the tick is the micro-program's run, whose first word decodes to `i`. -/
theorem stepRunsOfferedMicroOperation : Obligations.StepRunsOfferedMicroOperation := by
  intro s w ws i idle offered atRest low hdec
  have noHold : ¬1 < s.advance.timer.toNat := Nat.not_lt.2 atRest
  rw [step_of_micro low offered idle, microTick, if_neg noHold, runMicro]
  generalize decode (.uop18 w) = decoded at hdec ⊢
  subst hdec
  rfl

theorem execHold_zero (s : State) : execHold 0 s = .fault .holdOfZeroTicks :=
  if_pos rfl

/-- Settles O16: `exec` of HOLD is `execHold`. -/
theorem holdOfZeroTicksFaults : Obligations.HoldOfZeroTicksFaults :=
  execHold_zero

end Sys2Proof.Machine
end

/-! ## The micro-operations' effects, and what each instruction leaves unchanged (R51 to R53, R80 to R85) -/

section
namespace Sys2Proof.Machine

/-- Settles O13: the new level is `l`, whatever LINE was. -/
theorem setLevelCompletes : Obligations.SetLevelCompletes :=
  fun l _ => ⟨rfl, rfl, rfl, decodeMicro_setLevel_word 0 l, rfl⟩

@[simp] theorem opToggle_opToggle (s : State) : opToggle (opToggle s) = s := by
  simp [opToggle]

/-- Settles O14: toggling is an involution of the register. -/
theorem toggleCompletes : Obligations.ToggleCompletes :=
  fun s => ⟨rfl, congrArg Host.Outcome.next (opToggle_opToggle s), decodeMicro_toggle_word 0, rfl⟩

theorem execHold_of_ne_zero {d : Duration} (h : d ≠ 0) (s : State) : execHold d s = .next (opHold d s) :=
  if_neg h

/-- Settles O15: only HOLD 0 faults, and `opHold` is the effect R53 gives. -/
theorem holdCompletes : Obligations.HoldCompletes :=
  fun _ s h => execHold_of_ne_zero h s

/-- The inversion lemma of `exec`: the state an instruction gives, where it gives one. SEND and TRANSMIT both latch
their frame and begin a transmission. -/
theorem exec_cases {i : Instr} {s t : State} (h : exec i s = .next t) :
    (i = .nop ∧ t = s)
    ∨ (∃ f n b, (i = .send f ∧ n = 2 ∨ i = .transmit n f) ∧ t = beginTx n (opLatch f b n s))
    ∨ (∃ n, i = .setsym n ∧ t = if symbolLegal n then { s with symbol := n } else s)
    ∨ (∃ d, i = .hold d ∧ t = opHold d s)
    ∨ (∃ l, i = .setLevel l ∧ t = opSetLevel l s)
    ∨ (i = .toggle ∧ t = opToggle s) := by
  cases i with
  | nop => cases h; exact .inl ⟨rfl, rfl⟩
  | send f => cases h; exact .inr (.inl ⟨f, 2, true, .inl ⟨rfl, rfl⟩, rfl⟩)
  | transmit n f => cases h; exact .inr (.inl ⟨f, n, false, .inr rfl, rfl⟩)
  | setsym n => cases h; exact .inr (.inr (.inl ⟨n, rfl, rfl⟩))
  | hold d =>
    by_cases hd : d = 0
    · subst hd; cases h
    · cases (execHold_of_ne_zero hd s).symm.trans h
      exact .inr (.inr (.inr (.inl ⟨d, rfl, rfl⟩)))
  | setLevel l => cases h; exact .inr (.inr (.inr (.inr (.inl ⟨l, rfl, rfl⟩))))
  | toggle => cases h; exact .inr (.inr (.inr (.inr (.inr ⟨rfl, rfl⟩))))

/-- A transmission that does not begin with a sync pulse leaves SYNC_IDX alone (R93). -/
theorem beginTx_syncIdx {n : BitVec 8} (hn : n = 0 ∨ n = 2) (s : State) : (beginTx n s).syncIdx = s.syncIdx := by
  obtain rfl | rfl := hn <;> rfl

/-- Settles O18, by the cases of `exec`: each operation keeps what its laws say, and a clause's premise fails for the
instruction it excepts. -/
theorem instructionsLeaveTheRestUnchanged : Obligations.InstructionsLeaveTheRestUnchanged := by
  intro i s t h
  obtain ⟨rfl, rfl⟩ | ⟨f, n, b, hi, rfl⟩ | ⟨n, rfl, rfl⟩ | ⟨d, rfl, rfl⟩ | ⟨l, rfl, rfl⟩ | ⟨rfl, rfl⟩ := exec_cases h
  · simp
  · obtain ⟨-, -, hsymbol, hbit, -, -, hin, hprog, -⟩ := beginTx_frame n (opLatch f b n s)
    refine ⟨hin, hprog, hbit, fun _ => hsymbol, fun notSend notTransmit => ?_, fun g hg => ?_, fun m g hg hm => ?_⟩
    · obtain ⟨rfl, -⟩ | rfl := hi
      · exact absurd rfl (notSend f)
      · exact absurd rfl (notTransmit n f)
    · obtain ⟨-, rfl⟩ | rfl := hi
      · exact beginTx_syncIdx (.inr rfl) _
      · cases hg
    · obtain ⟨rfl, -⟩ | rfl := hi
      · cases hg
      · cases hg; exact beginTx_syncIdx hm _
  · split <;> simp
  · simp
  · simp
  · simp

end Sys2Proof.Machine
end

/-! ## Edges (R57) -/

section
namespace Sys2Proof.Machine

/-- Beginning a transmission begins a HOLD at the level the line then has. -/
theorem beginTx_trace (n : BitVec 8) (s : State) :
    (beginTx n s).trace = s.trace ++ [⟨(beginTx n s).line, (beginTx n s).timer.toNat⟩] := by
  obtain ⟨-, h⟩ | ⟨-, -, h⟩ | ⟨-, h⟩ := beginTx_cases n s <;> rw [h] <;> rfl

/-- The expiry of a phase begins a HOLD, but for the one that returns to IDLE (R104), which leaves the line. -/
theorem expire_trace (s : State) :
    (expire s).line = s.line ∨ (expire s).trace = s.trace ++ [⟨(expire s).line, (expire s).timer.toNat⟩] := by
  cases h : s.phase <;> rw [expire_eq h]
  case idle => exact .inl rfl
  case syncLo => right; dsimp only [expireOf]; unfold expireSyncLo; split <;> rfl
  case dataB => right; dsimp only [expireOf]; unfold expireDataB; split <;> rfl
  case silence =>
    dsimp only [expireOf]
    unfold expireSilence
    split
    · exact .inr (beginTx_trace _ _)
    · exact .inl rfl
  all_goals exact .inr rfl

/-- Settles O29: a step that begins no HOLD leaves the line. -/
theorem edgesOnlyWhereAHoldBegins : Obligations.EdgesOnlyWhereAHoldBegins := by
  intro s t seq low hstep edge
  obtain ⟨high, -⟩ | ⟨-, -, rfl⟩ | ⟨-, -, n, -, rfl⟩ | ⟨-, -, f, n, b, -, rfl⟩ | ⟨-, -, -, rfl⟩ | ⟨-, -, -, rfl⟩ :=
    step_cases seq hstep
  · rw [low] at high; cases high
  · exact absurd rfl edge
  · exact absurd rfl edge
  · exact beginTx_trace n (opLatch f b n s.advance)
  · exact absurd rfl edge
  · exact (expire_trace s.advance).resolve_left edge

end Sys2Proof.Machine
end

/-! ## Traces and waveforms (R54 to R56) -/

section
namespace Sys2Proof.Machine

/-- Settles O37, by induction on the micro-program: a HOLD alone adds a segment. -/
theorem traceOfAMicroProgram : Obligations.TraceOfAMicroProgram := by
  intro l p
  induction p generalizing l with
  | nil => exact ⟨rfl, rfl⟩
  | cons m p ih =>
    cases m with
    | hold d =>
      obtain ⟨hlength, hticks⟩ := ih l
      exact ⟨congrArg (· + 1) hlength, congrArg (d.toNat + ·) hticks⟩
    | setLevel v => exact ih v
    | toggle => exact ih (!l)

theorem length_expand (t : List Seg) : (expand t).length = traceTicks t := by
  induction t with
  | nil => rfl
  | cons g t ih => rw [expand, traceTicks, List.length_append, List.length_replicate, ih]

/-- A segment put before a trace, as one with the trace's first segment where the levels are equal. -/
def joinFirst (g : Seg) : List Seg → List Seg
  | [] => [g]
  | h :: hs => if g.level = h.level then { level := g.level, ticks := g.ticks + h.ticks } :: hs else g :: h :: hs

theorem merge_cons (g : Seg) (t : List Seg) : merge (g :: t) = joinFirst g (merge t) := rfl

theorem expand_joinFirst (g : Seg) (t : List Seg) : expand (joinFirst g t) = expand (g :: t) := by
  cases t with
  | nil => rfl
  | cons h t =>
    rw [joinFirst]
    split
    next same => rw [expand, expand, expand, List.replicate_add, List.append_assoc, same]
    next => rfl

theorem expand_merge (t : List Seg) : expand (merge t) = expand t := by
  induction t with
  | nil => rfl
  | cons g t ih => rw [merge_cons, expand_joinFirst, expand, expand, ih]

/-- The joined segment has the level of the segment it replaces, so its right neighbour still differs from it. -/
theorem isChain_joinFirst (g : Seg) {t : List Seg} (ht : t.IsChain (fun g h => g.level ≠ h.level)) :
    (joinFirst g t).IsChain (fun g h => g.level ≠ h.level) := by
  cases t with
  | nil => exact .singleton g
  | cons h t =>
    rw [joinFirst]
    split
    next same => rw [List.isChain_cons] at ht ⊢; rwa [same]
    next differ => exact .cons_cons differ ht

theorem isChain_merge (t : List Seg) : (merge t).IsChain (fun g h => g.level ≠ h.level) := by
  induction t with
  | nil => exact .nil
  | cons g t ih => exact isChain_joinFirst g ih

/-- Settles O38, its three parts by induction on the trace. -/
theorem mergeKeepsTheWaveform : Obligations.MergeKeepsTheWaveform :=
  fun t => ⟨length_expand t, expand_merge t, isChain_merge t⟩

/-- A duration of R6 with a legal symbol fits the hold counter (R56). -/
theorem ScalesWith.ticks_bounds {symbol : Nat} {g : Seg} (h : ScalesWith symbol symbol g g) (lo : 1 ≤ symbol)
    (hi : symbol ≤ 16383) : 1 ≤ g.ticks ∧ g.ticks ≤ 65535 := by
  have fixed : ∀ k ∈ [9415, 24030, 65535, 4550, 30415], 1 ≤ k ∧ k ≤ 65535 := by decide
  obtain ⟨-, ⟨-, hfixed⟩ | ⟨hsymbol, -⟩ | ⟨hpulse, -⟩⟩ := h
  · exact fixed _ hfixed
  · omega
  · omega

theorem txTrace_ticks_bounds {frame : FrameWord} {n symbol : Nat} (lo : 1 ≤ symbol) (hi : symbol ≤ 16383) {g : Seg}
    (hg : g ∈ txTrace frame n symbol) : 1 ≤ g.ticks ∧ g.ticks ≤ 65535 :=
  (List.forall₂_same.1 (txTrace_scalesWith frame n symbol symbol) g hg).ticks_bounds lo hi

/-- Settles O44: a burst's segments are those of its three transmissions. -/
theorem everyDurationFitsTheHoldCounter : Obligations.EveryDurationFitsTheHoldCounter := by
  intro frame n symbol lo hi g hg
  obtain hg | hg := hg
  · exact txTrace_ticks_bounds lo hi hg
  · rw [sendTrace, List.mem_append, List.mem_append] at hg
    obtain (hg | hg) | hg := hg <;> exact txTrace_ticks_bounds lo hi hg

end Sys2Proof.Machine
end

/-! ## The hold counter over several ticks (R53, R94) -/

section
namespace Sys2Proof.Machine

/-- The Bit Timer is in use: by the sequencer of a busy block, or by a micro-program offered to an idle one. -/
def State.TimerInUse (s : State) : Prop := s.phase = .idle ↔ s.microProg.isSome = true

theorem timerInUse_of_busy {s : State} (busy : s.phase ≠ .idle) (seq : s.microProg = none) : s.TimerInUse := by
  simp [State.TimerInUse, busy, seq]

theorem timerInUse_of_micro {s : State} {ws : List MicroWord} (idle : s.phase = .idle) (hm : s.microProg = some ws) :
    s.TimerInUse := by
  simp [State.TimerInUse, idle, hm]

/-- A tick of a hold that goes on, whoever issued it. -/
theorem step_countDown {s : State} (h : s.TimerInUse) (low : s.port.rst = false) (ht : 1 < s.timer.toNat) :
    step s = .next (opCountDown s.advance) := by
  cases hm : s.microProg with
  | none =>
    have busy : s.phase ≠ .idle := fun idle => by simpa [hm] using h.1 idle
    rw [step_of_busy low hm busy, holdCounter_of_lt (s := s.advance) ht]
  | some ws =>
    have idle : s.phase = .idle := h.2 (by rw [hm]; rfl)
    rw [step_of_micro low hm idle, microTick, if_pos (c := 1 < s.advance.timer.toNat) ht]

/-- `s` after `k` ticks of a hold that is still in progress. -/
def State.countedDown (s : State) (k : Nat) : State :=
  { s with timer := s.timer - BitVec.ofNat 16 k, inputs := s.inputs.drop k }

@[simp] theorem State.countedDown_zero (s : State) : s.countedDown 0 = s := by
  simp [State.countedDown]

theorem State.countedDown_succ (s : State) (k : Nat) :
    s.countedDown (k + 1) = (opCountDown s.advance).countedDown k := by
  have htimer : s.timer - BitVec.ofNat 16 (k + 1) = s.timer - 1 - BitVec.ofNat 16 k := by
    rw [Nat.add_comm, BitVec.ofNat_add]; exact (sub_sub _ _ _).symm
  have hinputs : s.inputs.drop (k + 1) = s.inputs.tail.drop k := List.drop_tail.symm
  rw [State.countedDown, htimer, hinputs]; rfl

theorem State.countedDown_timer {s : State} {k : Nat} (h : k < s.timer.toNat) :
    (s.countedDown k).timer.toNat = s.timer.toNat - k := by
  have := s.timer.isLt
  simp only [State.countedDown, BitVec.toNat_sub, BitVec.toNat_ofNat]
  omega

theorem wave_one (s : State) : wave 1 s = [s.line] := by
  rw [wave]
  split <;> rfl

/-- The hold counter counts as long as it is above 1, whatever the host presents, and the line stands. -/
theorem countDown_run {s : State} {k : Nat} (h : s.TimerInUse) (hk : k < s.timer.toNat)
    (low : RstLow (s.inputs.take k)) :
    afterTicks k s = some (s.countedDown k) ∧ wave (k + 1) s = List.replicate (k + 1) s.line := by
  induction k generalizing s with
  | zero => exact ⟨congrArg some s.countedDown_zero.symm, wave_one s⟩
  | succ k ih =>
    have hstep : step s = .next (opCountDown s.advance) :=
      step_countDown h (State.port_rst_of_take low) (by omega)
    have htimer : (opCountDown s.advance).timer.toNat = s.timer.toNat - 1 :=
      State.countedDown_timer (s := s) (k := 1) (by omega)
    obtain ⟨hafter, hwave⟩ := ih (s := opCountDown s.advance) h (by omega) (rstLow_tail low)
    rw [afterTicks_succ _ hstep, hafter, State.countedDown_succ, wave_succ _ hstep, hwave]
    exact ⟨rfl, rfl⟩

/-- A whole hold: at its last tick the step decides what follows. -/
theorem hold_run {s t : State} {n : Nat} (h : s.TimerInUse) (hn : s.timer.toNat = n + 1)
    (low : RstLow (s.inputs.take n)) (hlast : step (s.countedDown n) = .next t) :
    afterTicks (n + 1) s = some t ∧ wave (n + 1) s = List.replicate (n + 1) s.line := by
  obtain ⟨hafter, hwave⟩ := countDown_run h (by omega) low
  rw [afterTicks_add n 1 hafter, afterTicks_succ 0 hlast]
  exact ⟨rfl, hwave⟩

theorem exists_toNat_eq_succ {d : Duration} (h : d ≠ 0) : ∃ n, d.toNat = n + 1 :=
  Nat.exists_eq_succ_of_ne_zero fun h0 => h (BitVec.eq_of_toNat_eq h0)

/-- Settles O17: the step executes the HOLD, and the ticks that follow count it down. -/
theorem holdOccupiesItsTicks : Obligations.HoldOccupiesItsTicks := by
  intro s w ws d idle offered atRest hdec hd low
  obtain ⟨n, hn⟩ := exists_toNat_eq_succ hd
  rw [hn] at low
  have hexec : exec (.hold d) { s.advance with microProg := some ws } = _ := execHold_of_ne_zero hd _
  have hstep : step s = .next (opHold d { s.advance with microProg := some ws }) := by
    rw [stepRunsOfferedMicroOperation s w ws _ idle offered atRest (State.port_rst_of_take low) hdec, hexec]
    rfl
  have hcount {k : Nat} (hk : k < d.toNat) :=
    countDown_run (s := opHold d { s.advance with microProg := some ws }) (k := k)
      (timerInUse_of_micro idle rfl) hk (rstLow_mono (by omega) (rstLow_tail low))
  refine ⟨_, hstep, rfl, ?_, fun k hk => ?_⟩
  · rw [hn]; exact (hcount (by omega)).2
  · exact ⟨_, (hcount hk).1, State.countedDown_timer hk, rfl⟩

end Sys2Proof.Machine
end

/-! ## A micro-program run by the Bit Timer (R50, R54) -/

section
namespace Sys2Proof.Machine

theorem decode_microWord (m : MicroOp) : decode (.uop18 (microWord m)) = .ok m.toInstr := by
  cases m with
  | hold d => exact decodeMicro_hold_word d
  | setLevel l => exact decodeMicro_setLevel_word 0 l
  | toggle => exact decodeMicro_toggle_word 0

theorem ne_zero_of_wellFormed_hold {d : Duration} (wf : WellFormed (MicroOp.hold d).toInstr = true) : d ≠ 0 :=
  bne_iff_ne.1 wf

/-- A well-formed micro-operation's meaning is the effect it has when the sequencer issues it. -/
theorem exec_toInstr {m : MicroOp} (wf : WellFormed m.toInstr = true) (s : State) :
    exec m.toInstr s = .next (issueOne m s) := by
  cases m with
  | hold d => exact execHold_of_ne_zero (ne_zero_of_wellFormed_hold wf) s
  | setLevel l => rfl
  | toggle => rfl

theorem runMicro_cons {m : MicroOp} (wf : WellFormed m.toInstr = true) (ws : List MicroWord) (s : State) :
    runMicro (microWord m :: ws) s =
      if takesTime m.toInstr then .next (issueOne m { s with microProg := some ws })
      else runMicro ws (issueOne m { s with microProg := some ws }) := by
  rw [runMicro, decode_microWord]
  dsimp only
  rw [exec_toInstr wf]

/-- The state in which a micro-program `p` ends that was begun in `s`: what `run` gives (R54), the Bit Timer at rest. -/
def State.afterProg (s : State) (p : List MicroOp) : State :=
  { s with line := (run s.line p).1, trace := s.trace ++ (run s.line p).2, microProg := none, timer := 0,
           inputs := s.inputs.drop (progTicks p) }

/-- A HOLD's segment is the first of the trace, and the rest of the program begins where its ticks are over. -/
theorem State.afterProg_hold {s : State} {d : Duration} {n : Nat} (hn : d.toNat = n + 1) (ws : Option (List MicroWord))
    (p : List MicroOp) :
    ((opHold d { s with microProg := ws }).countedDown n).advance.afterProg p = s.afterProg (.hold d :: p) := by
  have hinputs : (s.inputs.drop n).tail.drop (progTicks p) = s.inputs.drop (d.toNat + progTicks p) := by
    rw [List.tail_drop, List.drop_drop, hn]
  have htrace (g : Seg) (t : List Seg) : s.trace ++ [g] ++ t = s.trace ++ g :: t := List.append_assoc ..
  simp only [State.afterProg, State.countedDown, State.advance, opHold, run, progTicks, hinputs, htrace]

/-- At the end of a hold on an idle block the words that follow are executed. -/
theorem offeredHold_run {s t : State} {n : Nat} {ws : List MicroWord} (idle : s.phase = .idle)
    (hm : s.microProg = some ws) (hn : s.timer.toNat = n + 1) (low : RstLow (s.inputs.take (n + 1)))
    (hrest : runMicro ws (s.countedDown n).advance = .next t) :
    afterTicks (n + 1) s = some t ∧ wave (n + 1) s = List.replicate (n + 1) s.line := by
  obtain ⟨lowCount, lowLast⟩ := rstLow_take_add.1 low
  have lowPort : (s.countedDown n).port.rst = false := State.port_rst_of_take (k := 0) lowLast
  have htimer : (s.countedDown n).timer.toNat = s.timer.toNat - n := State.countedDown_timer (by omega)
  have hlast : ¬1 < (s.countedDown n).advance.timer.toNat := by rw [State.advance_timer]; omega
  refine hold_run (timerInUse_of_micro idle hm) hn lowCount ?_
  rw [step_of_micro lowPort hm idle, microTick, if_neg hlast, hrest]

/-- From the boundary at which it begins, a well-formed micro-program drives the waveform of its trace. -/
theorem runMicro_run {p : List MicroOp} {s : State} (wf : ∀ m ∈ p, WellFormed m.toInstr = true) (idle : s.phase = .idle)
    (low : RstLow (s.inputs.take (progTicks p))) :
    ∃ t, runMicro (p.map microWord) s = .next t ∧ wave (progTicks p) t = expand (run s.line p).2
      ∧ afterTicks (progTicks p) t = some (s.afterProg p) := by
  induction p generalizing s with
  | nil => exact ⟨opMicroDone s, rfl, rfl, by simp [progTicks, afterTicks, State.afterProg, run, opMicroDone]⟩
  | cons m p ih =>
    obtain ⟨hm, hp⟩ := List.forall_mem_cons.1 wf
    rw [List.map_cons, runMicro_cons hm]
    cases m with
    | setLevel l => exact ih (s := opSetLevel l { s with microProg := some (p.map microWord) }) hp idle low
    | toggle => exact ih (s := opToggle { s with microProg := some (p.map microWord) }) hp idle low
    | hold d =>
      obtain ⟨n, hn⟩ := exists_toNat_eq_succ (ne_zero_of_wellFormed_hold hm)
      rw [progTicks, hn, rstLow_take_add] at low
      obtain ⟨lowHold, lowRest⟩ := low
      obtain ⟨t, hrest, hwave, hafter⟩ :=
        ih (s := ((opHold d { s with microProg := some (p.map microWord) }).countedDown n).advance) hp idle
          (by simpa [State.countedDown] using lowRest)
      obtain ⟨hafterHold, hwaveHold⟩ :=
        offeredHold_run (s := opHold d { s with microProg := some (p.map microWord) }) idle rfl hn lowHold hrest
      refine ⟨opHold d _, rfl, ?_, ?_⟩
      · rw [progTicks, hn, wave_add _ _ hafterHold, hwaveHold, hwave, run, expand, hn]; rfl
      · rw [progTicks, hn, afterTicks_add _ _ hafterHold, hafter, State.afterProg_hold hn]

/-- Settles O39: with no hold in progress the first tick begins the micro-program. -/
theorem bitTimerRunsAMicroProgram : Obligations.BitTimerRunsAMicroProgram := by
  intro s p wf idle offered atRest low
  have noHold : ¬1 < s.advance.timer.toNat := Nat.not_lt.2 atRest
  obtain ⟨t, hrun, hwave, hafter⟩ := runMicro_run (s := s.advance) wf idle (rstLow_tail low)
  refine ⟨t, ?_, hwave, ?_⟩
  · rw [step_of_micro (State.port_rst_of_take low) offered idle, microTick, if_neg noHold, hrun]
  · rw [hafter, State.afterProg, State.advance_inputs, List.drop_tail]; rfl

end Sys2Proof.Machine
end

/-! ## TRANSMIT at its acceptance (R92, R93) -/

section
namespace Sys2Proof.Machine

/-- Settles O11, by the three ways a transmission begins. -/
theorem transmitCompletes : Obligations.TransmitCompletes := by
  intro n frame s
  show Host.Outcome.next (beginTx n (opLatch frame false n s)) = _
  obtain ⟨rfl, h⟩ | ⟨h2, h0, h⟩ | ⟨rfl, h⟩ := beginTx_cases n (opLatch frame false n s)
  · rw [h]; rfl
  · rw [h, if_neg h2, if_neg h0]; rfl
  · rw [h]; rfl

end Sys2Proof.Machine
end

/-! ## The trace of one transmission (R67) -/

section
namespace Sys2Proof.Machine

/-- R54: the second program begins at the level on which the first one ends. -/
theorem run_append (l : Level) (p q : List MicroOp) :
    run l (p ++ q) = ((run (run l p).1 q).1, (run l p).2 ++ (run (run l p).1 q).2) := by
  induction p generalizing l with
  | nil => rfl
  | cons m p ih =>
    cases m with
    | hold d => rw [List.cons_append, run, run, ih]; rfl
    | setLevel v => exact ih v
    | toggle => exact ih (!l)

/-- The micro-program `p` has the trace `t` from any starting level. -/
def HasTrace (p : List MicroOp) (t : List Seg) : Prop := ∀ l, (run l p).2 = t

theorem HasTrace.append {p q : List MicroOp} {t u : List Seg} (hp : HasTrace p t) (hq : HasTrace q u) :
    HasTrace (p ++ q) (t ++ u) := by
  intro l
  rw [run_append, hp l, hq]

theorem HasTrace.flatMap {α : Type} {p : α → List MicroOp} {t : α → List Seg} (h : ∀ a, HasTrace (p a) (t a))
    (as : List α) : HasTrace (as.flatMap p) (as.flatMap t) := by
  induction as with
  | nil => exact fun _ => rfl
  | cons a as ih => exact (h a).append ih

theorem HasTrace.flatten_replicate {p : List MicroOp} {t : List Seg} (h : HasTrace p t) (n : Nat) :
    HasTrace (List.replicate n p).flatten (List.replicate n t).flatten := by
  have pulses := HasTrace.flatMap (fun _ => h) (List.replicate n ())
  rwa [List.flatMap_replicate, List.flatMap_replicate] at pulses

/-- The wake condition as the rules write it (R20, R61). -/
theorem wakeProg_eq (n : BitVec 8) :
    wakeProg n =
      if n = 2 then [.setLevel true, .hold tWakeHi, .setLevel false, .hold tWakeLo, .hold tWakeLo2] else [] :=
  if_congr beq_iff_eq rfl rfl

/-- The sync count that enables the wake-up, as a word and as a number. -/
theorem toNat_eq_syncFirst_iff {n : BitVec 8} : n.toNat = syncFirst.toNat ↔ n = 2 := BitVec.toNat_inj

theorem hasTrace_wakeProg (n : BitVec 8) :
    HasTrace (wakeProg n) (if n.toNat = syncFirst.toNat then
      [⟨true, tWakeHi.toNat⟩, ⟨false, tWakeLo.toNat⟩, ⟨false, tWakeLo2.toNat⟩] else []) := by
  rw [wakeProg_eq, if_congr toNat_eq_syncFirst_iff rfl rfl]
  split <;> exact fun _ => rfl

/-- The second half of a data bit is the bit's value, as the opposite of the first half's level (R64, R68). -/
theorem hasTrace_bitProg (b : Bool) (symbol : BitVec 16) :
    HasTrace (bitProg b symbol) [⟨!b, symbol.toNat⟩, ⟨b, symbol.toNat⟩] := by
  intro l
  show [Seg.mk (!b) symbol.toNat, Seg.mk (!!b) symbol.toNat] = _
  rw [Bool.not_not]

theorem hasTrace_syncProg (n : BitVec 8) {symbol : BitVec 16} (h : symbol.toNat ≤ 16383) :
    HasTrace (syncProg n symbol) (List.replicate n.toNat
      [⟨true, syncMult * symbol.toNat⟩, ⟨false, syncMult * symbol.toNat⟩]).flatten := by
  refine HasTrace.flatten_replicate (fun _ => ?_) n.toNat
  rw [syncMult, ← syncHold_toNat h]; rfl

/-- The five phases' traces do not depend on the level before them, and the silence ends LOW (R67). -/
theorem run_txProg (l : Level) (frame : FrameWord) (n : BitVec 8) {symbol : BitVec 16} (h : symbol.toNat ≤ 16383) :
    run l (txProg frame n symbol) = (false, txTrace frame n.toNat symbol.toNat) := by
  have level : (run l (txProg frame n symbol)).1 = false := by rw [txProg, run_append]; rfl
  have data : HasTrace (dataProg frame symbol) (dataTrace frame symbol.toNat) :=
    HasTrace.flatMap (fun i => hasTrace_bitProg (frameBit frame i) symbol) (List.range nBits)
  have trace : HasTrace (txProg frame n symbol) (txTrace frame n.toNat symbol.toNat) :=
    ((((hasTrace_wakeProg n).append (hasTrace_syncProg n h)).append fun _ => rfl).append data).append fun _ => rfl
  exact Prod.ext level (trace l)

/-- Settles O40: the rule's program and trace are `txProg` and `txTrace`, written out. -/
theorem transmissionTrace : Obligations.TransmissionTrace := by
  intro l frame n symbol _ hi
  have hrun := run_txProg l frame n hi
  refine ⟨?_, ?_, congrArg Prod.snd hrun⟩
  · rw [txProg, wakeProg_eq]; rfl
  · rw [hrun, txTrace, if_congr toNat_eq_syncFirst_iff rfl rfl]; rfl

end Sys2Proof.Machine
end

/-! ## The counts and the durations of one transmission (R69, R70) -/

section
namespace Sys2Proof.Machine

/-- A measure of lists, such as a count or a duration, that joining two lists adds. -/
def SumsOverAppend {α : Type} (f : List α → Nat) : Prop := ∀ xs ys, f (xs ++ ys) = f xs + f ys

section
variable {α : Type} {f : List α → Nat}

/-- A measure that adds item by item. -/
theorem sumsOverAppend_of_cons (nil : f [] = 0) (cons : ∀ x xs, f (x :: xs) = f [x] + f xs) : SumsOverAppend f := by
  intro xs ys
  induction xs with
  | nil => rw [List.nil_append, nil, Nat.zero_add]
  | cons x xs ih => rw [List.cons_append, cons, ih, cons x xs, Nat.add_assoc]

theorem SumsOverAppend.apply_nil (h : SumsOverAppend f) : f [] = 0 :=
  Nat.left_eq_add.1 (h [] [])

theorem SumsOverAppend.apply_flatMap (h : SumsOverAppend f) {β : Type} {g : β → List α} {c : Nat}
    (hg : ∀ b, f (g b) = c) (bs : List β) : f (bs.flatMap g) = bs.length * c := by
  induction bs with
  | nil => rw [List.length_nil, Nat.zero_mul]; exact h.apply_nil
  | cons b bs ih => rw [List.flatMap_cons, h, hg, ih, List.length_cons, Nat.succ_mul, Nat.add_comm]

theorem SumsOverAppend.apply_flatten_replicate (h : SumsOverAppend f) (n : Nat) (xs : List α) :
    f (List.replicate n xs).flatten = n * f xs := by
  have pulses := h.apply_flatMap (fun _ : Unit => (rfl : f xs = f xs)) (List.replicate n ())
  rwa [List.flatMap_replicate, List.length_replicate] at pulses

end

/-- A measure that every data bit adds alike is, over a transmission's program, the sum over its phases. -/
theorem SumsOverAppend.apply_txProg {f : List MicroOp → Nat} (h : SumsOverAppend f) {symbol : BitVec 16} {c : Nat}
    (hbit : ∀ b, f (bitProg b symbol) = c) (frame : FrameWord) (n : BitVec 8) :
    f (txProg frame n symbol) = f (wakeProg n)
      + n.toNat * f [.setLevel true, .hold (syncHold symbol), .setLevel false, .hold (syncHold symbol)]
      + f (startProg symbol) + 56 * c + f silenceProg := by
  have data : f (dataProg frame symbol) = 56 * c := h.apply_flatMap (fun i => hbit (frameBit frame i)) _
  rw [txProg, h, h, h, h, data, syncProg, h.apply_flatten_replicate]

/-- The same over a transmission's trace. -/
theorem SumsOverAppend.apply_txTrace {f : List Seg → Nat} (h : SumsOverAppend f) {symbol c : Nat}
    (hbit : ∀ b, f [⟨!b, symbol⟩, ⟨b, symbol⟩] = c) (frame : FrameWord) (n : Nat) :
    f (txTrace frame n symbol) = (if n = 2 then f [⟨true, 9415⟩, ⟨false, 24030⟩, ⟨false, 65535⟩] else 0)
      + n * f [⟨true, 4 * symbol⟩, ⟨false, 4 * symbol⟩] + f [⟨true, 4550⟩, ⟨false, symbol⟩] + 56 * c
      + f [⟨false, 30415⟩] := by
  have data : f (dataTrace frame symbol) = 56 * c := h.apply_flatMap (fun i => hbit (frameBit frame i)) _
  rw [txTrace, h, h, h, h, data, h.apply_flatten_replicate, apply_ite f, h.apply_nil]
  rfl

theorem sumsOverAppend_holds : SumsOverAppend holds := by
  refine sumsOverAppend_of_cons rfl fun m p => ?_
  cases m with
  | hold d => exact Nat.add_comm (holds p) 1
  | setLevel _ | toggle => exact (Nat.zero_add _).symm

theorem sumsOverAppend_setLevels : SumsOverAppend setLevels := by
  refine sumsOverAppend_of_cons rfl fun m p => ?_
  cases m with
  | setLevel l => exact Nat.add_comm (setLevels p) 1
  | hold _ | toggle => exact (Nat.zero_add _).symm

theorem sumsOverAppend_toggles : SumsOverAppend toggles := by
  refine sumsOverAppend_of_cons rfl fun m p => ?_
  cases m with
  | toggle => exact Nat.add_comm (toggles p) 1
  | hold _ | setLevel _ => exact (Nat.zero_add _).symm

theorem sumsOverAppend_length : SumsOverAppend (List.length (α := Seg)) := fun _ _ => List.length_append

theorem sumsOverAppend_traceTicks : SumsOverAppend traceTicks := sumsOverAppend_of_cons rfl fun _ _ => rfl

theorem sumsOverAppend_highTicks : SumsOverAppend highTicks := sumsOverAppend_of_cons rfl fun _ _ => rfl

theorem holds_txProg (frame : FrameWord) (n : BitVec 8) (symbol : BitVec 16) :
    holds (txProg frame n symbol) = 115 + 2 * n.toNat + (if n = 2 then 3 else 0) := by
  rw [sumsOverAppend_holds.apply_txProg (c := 2) fun _ => rfl, wakeProg_eq]
  split <;> simp only [startProg, silenceProg, holds] <;> omega

theorem setLevels_txProg (frame : FrameWord) (n : BitVec 8) (symbol : BitVec 16) :
    setLevels (txProg frame n symbol) = (if n = 2 then 2 else 0) + 2 * n.toNat + 2 + 56 + 1 := by
  rw [sumsOverAppend_setLevels.apply_txProg (c := 1) fun _ => rfl, wakeProg_eq]
  split <;> simp only [startProg, silenceProg, setLevels] <;> omega

/-- A data bit has the only TOGGLE there is (R64). -/
theorem toggles_txProg (frame : FrameWord) (n : BitVec 8) (symbol : BitVec 16) :
    toggles (txProg frame n symbol) = 56 := by
  rw [sumsOverAppend_toggles.apply_txProg (c := 1) fun _ => rfl, wakeProg_eq]
  split <;> rfl

theorem length_txTrace (frame : FrameWord) (n symbol : Nat) :
    (txTrace frame n symbol).length = 115 + 2 * n + (if n = 2 then 3 else 0) := by
  rw [sumsOverAppend_length.apply_txTrace (c := 2) fun _ => rfl]
  simp only [List.length_cons, List.length_nil]
  ring

/-- R70's sum, phase by phase. -/
theorem traceTicks_txTrace (frame : FrameWord) (n symbol : Nat) :
    traceTicks (txTrace frame n symbol)
      = (if n = 2 then 98980 else 0) + 8 * n * symbol + (4550 + symbol) + 112 * symbol + 30415 := by
  rw [sumsOverAppend_traceTicks.apply_txTrace (c := symbol + symbol) fun _ => rfl]
  simp only [traceTicks]
  ring

/-- One half of every data bit is HIGH, whatever the bit (R64). -/
theorem highTicks_dataBit (b : Bool) (symbol : Nat) : highTicks [⟨!b, symbol⟩, ⟨b, symbol⟩] = symbol := by
  cases b <;> simp [highTicks]

theorem highTicks_txTrace (frame : FrameWord) (n symbol : Nat) :
    highTicks (txTrace frame n symbol) = (if n = 2 then 9415 else 0) + 4 * n * symbol + 4550 + 56 * symbol := by
  rw [sumsOverAppend_highTicks.apply_txTrace (highTicks_dataBit · symbol)]
  simp only [highTicks, if_true, Bool.false_eq_true, if_false]
  ring

/-- R70's second form of the same sum. -/
theorem traceTicks_txTrace_eq_txTicks (frame : FrameWord) (n symbol : Nat) :
    traceTicks (txTrace frame n symbol) = txTicks n symbol := by
  rw [traceTicks_txTrace, txTicks]
  ring

/-- Settles O41: each count is the sum over the phases. -/
theorem countsOfATransmission : Obligations.CountsOfATransmission := by
  intro frame n symbol
  refine ⟨holds_txProg frame n symbol, ?_, setLevels_txProg frame n symbol, toggles_txProg frame n symbol⟩
  rw [length_txTrace, if_congr (show n.toNat = 2 ↔ n = 2 from toNat_eq_syncFirst_iff) rfl rfl]

/-- Settles O42: `txTicks` is the second form by definition. -/
theorem durationOfATransmission : Obligations.DurationOfATransmission :=
  ⟨fun frame n symbol => ⟨traceTicks_txTrace frame n symbol, traceTicks_txTrace_eq_txTicks frame n symbol,
    traceTicks_txTrace_eq_txTicks frame n symbol, highTicks_txTrace frame n symbol⟩, rfl, rfl⟩

end Sys2Proof.Machine
end

/-! ## The data phase (R65, R68) -/

section
namespace Sys2Proof.Machine

/-- Item `k` of a list of pairs laid end to end stands at `2k` and `2k + 1`. -/
theorem getElem?_flatMap_pair {α β : Type} (f g : α → β) (as : List α) (k : Nat) :
    (as.flatMap fun a => [f a, g a])[2 * k]? = as[k]?.map f
    ∧ (as.flatMap fun a => [f a, g a])[2 * k + 1]? = as[k]?.map g := by
  induction as generalizing k with
  | nil => exact ⟨rfl, rfl⟩
  | cons a as ih =>
    cases k with
    | zero => exact ⟨rfl, rfl⟩
    | succ k => exact ih k

/-- R65: segment `2i` is `NOT b(i)` and segment `2i + 1` is `b(i)`. -/
theorem getElem?_dataTrace (frame : FrameWord) (symbol : Nat) {i : Nat} (h : i < 56) :
    (dataTrace frame symbol)[2 * i]? = some ⟨!frameBit frame i, symbol⟩
    ∧ (dataTrace frame symbol)[2 * i + 1]? = some ⟨frameBit frame i, symbol⟩ := by
  obtain ⟨hfirst, hsecond⟩ := getElem?_flatMap_pair (fun i => Seg.mk (!frameBit frame i) symbol)
    (fun i => Seg.mk (frameBit frame i) symbol) (List.range nBits) i
  rw [List.getElem?_range (show i < nBits from h)] at hfirst hsecond
  exact ⟨hfirst, hsecond⟩

/-- The runs of merged data bits: the first, which no bit before it has joined yet, lasts one symbol at most, and every
one two. -/
def DataRuns (symbol : Nat) (t : List Seg) : Prop :=
  (∀ g ∈ t.head?, g.ticks ≤ symbol) ∧ ∀ g ∈ t, g.ticks ≤ 2 * symbol

/-- The second half of a bit may join the first run after it. -/
theorem DataRuns.joinFirst_secondHalf {symbol : Nat} {t : List Seg} (h : DataRuns symbol t) (b : Bool) :
    ∃ k us, joinFirst ⟨b, symbol⟩ t = ⟨b, k⟩ :: us ∧ ∀ g ∈ Seg.mk b k :: us, g.ticks ≤ 2 * symbol := by
  obtain ⟨hhead, hall⟩ := h
  have hsymbol : symbol ≤ 2 * symbol := by omega
  cases t with
  | nil => exact ⟨symbol, [], rfl, by simpa using hsymbol⟩
  | cons g us =>
    obtain ⟨-, hrest⟩ := List.forall_mem_cons.1 hall
    have hg : g.ticks ≤ symbol := hhead g rfl
    rw [joinFirst]
    split
    · have hjoined : symbol + g.ticks ≤ 2 * symbol := by omega
      exact ⟨_, us, rfl, List.forall_mem_cons.2 ⟨hjoined, hrest⟩⟩
    · exact ⟨symbol, g :: us, rfl, List.forall_mem_cons.2 ⟨hsymbol, hall⟩⟩

/-- The first half of a bit joins nothing, since its second half has the other level (R68). -/
theorem dataRuns_merge_bit {symbol : Nat} {t : List Seg} (h : DataRuns symbol (merge t)) (b : Bool) :
    DataRuns symbol (merge (⟨!b, symbol⟩ :: ⟨b, symbol⟩ :: t)) := by
  obtain ⟨k, us, hsecond, hall⟩ := h.joinFirst_secondHalf b
  have hfirst : joinFirst ⟨!b, symbol⟩ (⟨b, k⟩ :: us) = ⟨!b, symbol⟩ :: ⟨b, k⟩ :: us := if_neg (Bool.not_ne_self b)
  rw [merge_cons, merge_cons, hsecond, hfirst]
  refine ⟨?_, List.forall_mem_cons.2 ⟨?_, hall⟩⟩
  · rintro g ⟨⟩; exact Nat.le_refl symbol
  · show symbol ≤ 2 * symbol
    omega

/-- R68 (d), for the bits of any list of indices. -/
theorem dataRuns_merge_bits (frame : FrameWord) (symbol : Nat) (is : List Nat) :
    DataRuns symbol (merge (is.flatMap fun i => [⟨!frameBit frame i, symbol⟩, ⟨frameBit frame i, symbol⟩])) := by
  induction is with
  | nil => exact ⟨nofun, nofun⟩
  | cons i is ih => exact dataRuns_merge_bit ih (frameBit frame i)

/-- Settles O43: the segments stand where R65 has them, and `DataRuns` bounds the runs. -/
theorem toggleSemanticsOfTheDataPhase : Obligations.ToggleSemanticsOfTheDataPhase := by
  intro frame symbol
  refine ⟨fun i hi => ?_, fun i hi => ?_, (dataRuns_merge_bits frame symbol (List.range nBits)).2⟩
  · obtain ⟨hfirst, hsecond⟩ := getElem?_dataTrace frame symbol hi
    exact ⟨_, _, hfirst, hsecond, (Bool.not_not _).symm, rfl, rfl, rfl⟩
  · obtain ⟨-, hsecond⟩ := getElem?_dataTrace frame symbol (i := i) (by omega)
    obtain ⟨hnext, -⟩ := getElem?_dataTrace frame symbol (i := i + 1) (by omega)
    exact ⟨_, _, hsecond, hnext, Bool.ne_not⟩

end Sys2Proof.Machine
end

/-! ## NOP, SEND and SETSYM at their acceptance (R80, R83, R84) -/

section
namespace Sys2Proof.Machine

/-- An idle block runs the instruction that stands on its port (R92). -/
theorem Presents.step_eq {s : State} {w : CmdWord} {i : Instr} (h : Presents s w) (hdec : decodeCommand w = i) :
    step s = exec i s.advance :=
  stepRunsPresentedCommand s w i h (congrArg Except.ok hdec)

theorem busy_of_idle {s : State} (idle : s.phase = .idle) : s.busy = false := by
  rw [State.busy, idle]; rfl

theorem busy_of_not_idle {s : State} (busy : s.phase ≠ .idle) : s.busy = true :=
  decide_eq_true busy

theorem cmdReady_of_idle {s : State} (idle : s.phase = .idle) (low : s.port.rst = false) : s.cmdReady = true := by
  rw [State.cmdReady, idle, low]; rfl

theorem cmdReady_of_not_idle {s : State} (busy : s.phase ≠ .idle) : s.cmdReady = false := by
  rw [State.cmdReady, decide_eq_false busy, Bool.false_and]

/-- Settles O9: the decoder's first case, and the step of an idle block that is presented it. -/
theorem nopCompletes : Obligations.NopCompletes :=
  ⟨fun _ => rfl, fun _ => decodeCommand_of_op_zero, fun _ => cmdReady_of_not_idle,
    fun _ _ h hdec => ⟨h.step_eq hdec, busy_of_idle h.idle⟩⟩

/-- SEND's sync count enables the wake-up (R61, R93). -/
theorem beginTx_syncFirst (s : State) : beginTx syncFirst s = enter .wakeHi [.setLevel true, .hold tWakeHi] s := rfl

/-- Settles O10: SEND latches the frame and begins with the wake-up's first hold. -/
theorem sendCompletes : Obligations.SendCompletes := by
  intro frame s
  show Host.Outcome.next (beginTx syncFirst (opLatch frame true syncFirst s)) = _
  rw [beginTx_syncFirst, enter_setLevel_hold]
  rfl

/-- R83, with the legal range of R14 as numbers. -/
theorem execSetsym_eq (n : BitVec 16) (s : State) :
    execSetsym n s = .next (if 1 ≤ n.toNat ∧ n.toNat ≤ 16383 then { s with symbol := n } else s) := by
  rw [execSetsym, if_congr (symbolLegal_iff n) rfl rfl]

/-- Settles O12: SETSYM writes SYMBOL at most, so the block is idle after it as before it. -/
theorem setsymCompletes : Obligations.SetsymCompletes := by
  refine ⟨execSetsym_eq, fun s w n h hdec => ?_⟩
  have hstep := (h.step_eq hdec).trans (execSetsym_eq n s.advance)
  refine ⟨_, hstep, rfl, ?_⟩
  have idle : (if 1 ≤ n.toNat ∧ n.toNat ≤ 16383 then { s.advance with symbol := n } else s.advance).phase = .idle := by
    split <;> exact h.idle
  exact ⟨busy_of_idle idle, cmdReady_of_idle idle⟩

end Sys2Proof.Machine
end

/-! ## The totals of a burst (R81, R82) -/

section
namespace Sys2Proof.Machine

theorem toggles_sendProg (frame : FrameWord) (symbol : BitVec 16) : toggles (sendProg frame symbol) = 168 := by
  rw [sendProg, sumsOverAppend_toggles, sumsOverAppend_toggles, toggles_txProg, toggles_txProg]

/-- Each transmission of a burst begins at the LOW level on which the one before it ends, and its trace is the same
from any level. -/
theorem run_sendProg (l : Level) (frame : FrameWord) {symbol : BitVec 16} (h : symbol.toNat ≤ 16383) :
    run l (sendProg frame symbol) = (false, sendTrace frame symbol.toNat) := by
  rw [sendProg, run_append, run_append, run_txProg _ _ _ h, run_txProg _ _ _ h, run_txProg _ _ _ h]
  rfl

/-- A measure of traces, over a burst. -/
theorem SumsOverAppend.apply_sendTrace {f : List Seg → Nat} (h : SumsOverAppend f) (frame : FrameWord) (symbol : Nat) :
    f (sendTrace frame symbol) = f (txTrace frame 2 symbol) + f (txTrace frame 7 symbol) + f (txTrace frame 7 symbol) := by
  rw [sendTrace, h, h]
  rfl

theorem length_sendTrace (frame : FrameWord) (symbol : Nat) : (sendTrace frame symbol).length = 380 := by
  rw [sumsOverAppend_length.apply_sendTrace, length_txTrace, length_txTrace]
  rfl

theorem sendTicks_eq (symbol : Nat) : sendTicks symbol = txTicks 2 symbol + txTicks 7 symbol + txTicks 7 symbol := by
  simp only [sendTicks, txTicks, if_true, Nat.reduceEqDiff, if_false]
  ring

theorem traceTicks_sendTrace (frame : FrameWord) (symbol : Nat) :
    traceTicks (sendTrace frame symbol) = sendTicks symbol := by
  rw [sumsOverAppend_traceTicks.apply_sendTrace, traceTicks_txTrace_eq_txTicks, traceTicks_txTrace_eq_txTicks,
    sendTicks_eq]

theorem highTicks_sendTrace (frame : FrameWord) (symbol : Nat) :
    highTicks (sendTrace frame symbol) = 23065 + 232 * symbol := by
  rw [sumsOverAppend_highTicks.apply_sendTrace, highTicks_txTrace, highTicks_txTrace]
  simp only [if_true, Nat.reduceEqDiff, if_false]
  ring

/-- Settles O46: every total of the burst is the sum of its three transmissions'. -/
theorem totalsOfABurst : Obligations.TotalsOfABurst :=
  ⟨fun l frame symbol _ hi => ⟨run_sendProg l frame hi, toggles_sendProg frame symbol⟩,
    fun frame symbol => ⟨rfl, length_sendTrace frame symbol, traceTicks_sendTrace frame symbol,
      highTicks_sendTrace frame symbol⟩⟩

end Sys2Proof.Machine
end

/-! ## What is seen of the block over several ticks, and how two stretches join (R55, R105) -/

section
namespace Sys2Proof.Machine

/-- Over `k` ticks from `s` the block drives `levels` on `tx`, shows `busy`, and comes to `t`. -/
structure Observed (s : State) (k : Nat) (levels : List Level) (busy : List Bool) (t : State) : Prop where
  after : afterTicks k s = some t
  wave : wave k s = levels
  busyWave : busyWave k s = busy

theorem Observed.trans {s t u : State} {j k : Nat} {l m : List Level} {b c : List Bool} (h : Observed s j l b t)
    (h' : Observed t k m c u) : Observed s (j + k) (l ++ m) (b ++ c) u where
  after := by rw [afterTicks_add _ _ h.after, h'.after]
  wave := by rw [wave_add _ _ h.after, h.wave, h'.wave]
  busyWave := by rw [busyWave_add _ _ h.after, h.busyWave, h'.busyWave]

theorem observed_step {s t : State} (h : step s = .next t) : Observed s 1 [s.line] [s.busy] t :=
  ⟨afterTicks_succ 0 h, wave_succ 0 h, busyWave_succ 0 h⟩

theorem expand_append (t u : List Seg) : expand (t ++ u) = expand t ++ expand u := by
  induction t with
  | nil => rfl
  | cons g t ih => rw [List.cons_append, expand, expand, ih, List.append_assoc]

theorem busyWave_one (s : State) : busyWave 1 s = [s.busy] := by
  rw [busyWave]
  split <;> rfl

/-- `busy` stands as long as a hold of the sequencer's counts. -/
theorem countDown_busyWave {s : State} {k : Nat} (busy : s.phase ≠ .idle) (seq : s.microProg = none)
    (hk : k < s.timer.toNat) (low : RstLow (s.inputs.take k)) : busyWave (k + 1) s = List.replicate (k + 1) true := by
  induction k with
  | zero => rw [busyWave_one, busy_of_not_idle busy]; rfl
  | succ k ih =>
    obtain ⟨hafter, -⟩ := countDown_run (timerInUse_of_busy busy seq) hk low
    have hbusy : (s.countedDown (k + 1)).busy = true := busy_of_not_idle busy
    rw [busyWave_add (k + 1) 1 hafter, ih (by omega) (rstLow_mono (by omega) low), busyWave_one, hbusy,
      ← List.replicate_succ']

/-- A whole hold of a busy block, and the expiry of its phase (R94). -/
theorem busyHold_observed {s : State} (busy : s.phase ≠ .idle) (seq : s.microProg = none) (hd : s.timer ≠ 0)
    (low : RstLow (s.inputs.take s.timer.toNat)) :
    Observed s s.timer.toNat (List.replicate s.timer.toNat s.line) (List.replicate s.timer.toNat true)
      (expire { s with inputs := s.inputs.drop s.timer.toNat }) := by
  obtain ⟨n, hn⟩ := exists_toNat_eq_succ hd
  rw [hn] at low ⊢
  obtain ⟨lowCount, lowLast⟩ := rstLow_take_add.1 low
  have lowPort : (s.countedDown n).port.rst = false := State.port_rst_of_take (k := 0) lowLast
  have htimer : (s.countedDown n).timer.toNat = s.timer.toNat - n := State.countedDown_timer (by omega)
  have hlast : ¬1 < (s.countedDown n).advance.timer.toNat := by rw [State.advance_timer]; omega
  have hstep : step (s.countedDown n) = .next (expire { s with inputs := s.inputs.drop (n + 1) }) := by
    rw [step_of_busy (s := s.countedDown n) lowPort seq busy, holdCounter_of_not_lt hlast, ← List.tail_drop]
    exact congrArg _ (expire_timer (s := { s with inputs := (s.inputs.drop n).tail }) busy _)
  obtain ⟨hafter, hwave⟩ := hold_run (timerInUse_of_busy busy seq) hn lowCount hstep
  exact ⟨hafter, hwave, countDown_busyWave busy seq (by omega) lowCount⟩

end Sys2Proof.Machine
end

/-! ## The segments a busy block drives (R94, R106)

A hold's segment is recorded where the hold begins. So that the phases of a transmission can be joined, a state is
taken here without its record and its inputs, and the segment of the hold that has just begun is added to the record by
`State.begun`. Two states that differ in these two fields only are, by definition, the same to `Drives`. -/

section
namespace Sys2Proof.Machine

/-- The segment of the hold that begins in a state; an idle block has none. -/
def State.begun (s : State) : List Seg :=
  match s.phase with
  | .idle => []
  | _ => [⟨s.line, s.timer.toNat⟩]

theorem State.begun_of_busy {s : State} (busy : s.phase ≠ .idle) : s.begun = [⟨s.line, s.timer.toNat⟩] := by
  unfold State.begun
  split
  · contradiction
  · rfl

/-- `s` with the host's later inputs `ps`, and with the record `r` before the hold that begins. -/
def State.over (s : State) (ps : List PortIn) (r : List Seg) : State :=
  { s with inputs := ps, trace := r ++ s.begun }

/-- With `rst` low, the busy block drives the segments `w` from `s` on, records them, and comes to `t`, whatever the
host presents. -/
def Drives (s : State) (w : List Seg) (t : State) : Prop :=
  ∀ (ps : List PortIn) (r : List Seg), RstLow (ps.take (traceTicks w)) →
    Observed (s.over ps r) (traceTicks w) (expand w) (List.replicate (traceTicks w) true)
      (t.over (ps.drop (traceTicks w)) (r ++ w))

theorem Drives.trans {s t u : State} {v w : List Seg} (h : Drives s v t) (h' : Drives t w u) :
    Drives s (v ++ w) u := by
  intro ps r low
  rw [sumsOverAppend_traceTicks v w] at low ⊢
  obtain ⟨lowFirst, lowSecond⟩ := rstLow_take_add.1 low
  rw [expand_append, List.replicate_add, ← List.drop_drop, ← List.append_assoc]
  exact (h ps r lowFirst).trans (h' _ _ lowSecond)

theorem drives_nil (s : State) : Drives s [] s := fun _ r _ => ⟨by rw [List.append_nil]; rfl, rfl, rfl⟩

/-- A transmission without wake-up begins with its first sync pulse (R93). -/
theorem beginTx_eq_enterSyncHi {n : BitVec 8} (h2 : n ≠ 2) (h0 : n ≠ 0) (s : State) : beginTx n s = enterSyncHi 0 s := by
  obtain ⟨-, -, h⟩ := ((beginTx_cases n s).resolve_left fun h => h2 h.1).resolve_right fun h => h0 h.1
  exact h

theorem beginTx_over (n : BitVec 8) (s : State) (ps : List PortIn) (r : List Seg) :
    beginTx n { s with inputs := ps, trace := r } = (beginTx n s).over ps r := by
  by_cases h2 : n = 2
  · subst h2; rfl
  by_cases h0 : n = 0
  · subst h0; rfl
  · rw [beginTx_eq_enterSyncHi h2 h0, beginTx_eq_enterSyncHi h2 h0]; rfl

/-- No expiry rule reads the inputs or the record, and each records the hold it begins. -/
theorem expire_over {s : State} (busy : s.phase ≠ .idle) (ps : List PortIn) (r : List Seg) :
    expire { s with inputs := ps, trace := r } = (expire s).over ps r := by
  show expireOf s.phase { s with inputs := ps, trace := r } = (expireOf s.phase s).over ps r
  cases h : s.phase
  case idle => contradiction
  case syncLo => dsimp only [expireOf]; unfold expireSyncLo; split <;> rfl
  case dataB => dsimp only [expireOf]; unfold expireDataB; split <;> rfl
  case silence =>
    dsimp only [expireOf]
    unfold expireSilence
    split
    · exact beginTx_over syncRepeat { s with txIdx := s.txIdx + 1, sync := syncRepeat } ps r
    · simp [opIdle, State.over, State.begun]
  all_goals rfl

/-- A busy block drives the segment of the hold in progress, and then its phase expires. -/
theorem drives_hold {s : State} (busy : s.phase ≠ .idle) (seq : s.microProg = none) (hd : s.timer ≠ 0) :
    Drives s [⟨s.line, s.timer.toNat⟩] (expire s) := by
  intro ps r low
  have hexpand : expand [⟨s.line, s.timer.toNat⟩] = List.replicate s.timer.toNat s.line := List.append_nil _
  have hend : expire { s.over ps r with inputs := ps.drop s.timer.toNat }
      = (expire s).over (ps.drop s.timer.toNat) (r ++ [⟨s.line, s.timer.toNat⟩]) := by
    rw [← State.begun_of_busy busy]; exact expire_over busy _ _
  rw [hexpand]
  exact hend ▸ busyHold_observed (s := s.over ps r) busy seq hd low

end Sys2Proof.Machine
end

/-! ## The phases of a transmission (R61 to R66, R95 to R103) -/

section
namespace Sys2Proof.Machine

/-- Enter SILENCE (R66). -/
def enterSilence (s : State) : State := enter .silence [.setLevel false, .hold tSilence] s

theorem expireSyncLo_again {s : State} (h : s.syncIdx.toNat + 1 < s.sync.toNat) :
    expireSyncLo s = enterSyncHi (s.syncIdx + 1) s := if_pos h

theorem expireSyncLo_last {s : State} (h : ¬s.syncIdx.toNat + 1 < s.sync.toNat) : expireSyncLo s = enterStartHi s :=
  if_neg h

theorem expireDataB_again {s : State} (h : s.bitIdx.toNat + 1 < nBits) : expireDataB s = enterDataA (s.bitIdx + 1) s :=
  if_pos h

theorem expireDataB_last {s : State} (h : ¬s.bitIdx.toNat + 1 < nBits) : expireDataB s = enterSilence s := if_neg h

/-- The segments of phase 1 (R61). -/
def wakeTrace : List Seg := [⟨true, tWakeHi.toNat⟩, ⟨false, tWakeLo.toNat⟩, ⟨false, tWakeLo2.toNat⟩]

/-- The segments of phase 2 (R62). -/
def syncTrace (n symbol : Nat) : List Seg :=
  (List.replicate n [⟨true, syncMult * symbol⟩, ⟨false, syncMult * symbol⟩]).flatten

theorem syncTrace_succ (n symbol : Nat) :
    syncTrace (n + 1) symbol = [⟨true, syncMult * symbol⟩, ⟨false, syncMult * symbol⟩] ++ syncTrace n symbol := rfl

/-- The segments of phase 3 (R63). -/
def startTrace (symbol : Nat) : List Seg := [⟨true, tStartHi.toNat⟩, ⟨false, symbol⟩]

theorem txTrace_eq (frame : FrameWord) (n symbol : Nat) :
    txTrace frame n symbol = (if n = syncFirst.toNat then wakeTrace else []) ++ syncTrace n symbol
      ++ startTrace symbol ++ dataTrace frame symbol ++ [⟨false, tSilence.toNat⟩] := rfl

/-- What the phases of a transmission need of the block: its sequencer drives it, and no hold is of zero ticks. -/
structure State.Sending (s : State) : Prop where
  sequencer : s.microProg = none
  symbol_pos : 1 ≤ s.symbol.toNat
  symbol_le : s.symbol.toNat ≤ 16383

section
variable {s : State} (h : s.Sending)
include h

theorem State.Sending.symbol_ne_zero : s.symbol ≠ 0 := Machine.symbol_ne_zero h.symbol_pos

theorem State.Sending.syncHold_ne_zero : syncHold s.symbol ≠ 0 :=
  Machine.syncHold_ne_zero ⟨h.symbol_pos, h.symbol_le⟩

/-- Phase 1, which sync count 2 enables (R61). -/
theorem drives_wake :
    Drives (enter .wakeHi [.setLevel true, .hold tWakeHi] s) wakeTrace (enterSyncHi 0 s) := by
  have high := drives_hold (s := enter .wakeHi [.setLevel true, .hold tWakeHi] s) nofun h.sequencer tWakeHi_ne_zero
  have low := drives_hold (s := enter .wakeLo [.setLevel false, .hold tWakeLo] s) nofun h.sequencer tWakeLo_ne_zero
  have low2 := drives_hold (s := enter .wakeLo2 [.setLevel false, .hold tWakeLo2] s) nofun h.sequencer tWakeLo2_ne_zero
  exact high.trans (low.trans low2)

/-- One sync pulse (R62). -/
theorem drives_syncPulse (k : BitVec 8) :
    Drives (enterSyncHi k s) [⟨true, syncMult * s.symbol.toNat⟩, ⟨false, syncMult * s.symbol.toNat⟩]
      (expireSyncLo { s with syncIdx := k, phase := .syncLo, line := false, timer := syncHold s.symbol }) := by
  have high := drives_hold (s := enterSyncHi k s) nofun h.sequencer h.syncHold_ne_zero
  have low := drives_hold (s := { s with syncIdx := k, phase := .syncLo, line := false, timer := syncHold s.symbol })
    nofun h.sequencer h.syncHold_ne_zero
  rw [syncMult, ← syncHold_toNat h.symbol_le]
  exact high.trans low

/-- Phase 2 from sync pulse `k` on, with `m` pulses after it (R62, R99). -/
theorem drives_sync {k : BitVec 8} {m : Nat} (hm : k.toNat + m + 1 = s.sync.toNat) :
    Drives (enterSyncHi k s) (syncTrace (m + 1) s.symbol.toNat) (enterStartHi { s with syncIdx := s.sync - 1 }) := by
  induction m generalizing k with
  | zero =>
    have pulse := drives_syncPulse h k
    have hk : k = s.sync - 1 := by bv_omega
    rw [expireSyncLo_last (show ¬k.toNat + 1 < s.sync.toNat by omega), hk] at pulse
    rw [hk]
    exact pulse
  | succ m ih =>
    have pulse := drives_syncPulse h k
    rw [expireSyncLo_again (show k.toNat + 1 < s.sync.toNat by omega)] at pulse
    have hk : (k + 1).toNat + m + 1 = s.sync.toNat := by bv_omega
    rw [syncTrace_succ]
    exact pulse.trans (ih hk)

/-- Phase 3 (R63). -/
theorem drives_start :
    Drives (enterStartHi s) (startTrace s.symbol.toNat) (enterDataA 0 s) := by
  have high := drives_hold (s := enterStartHi s) nofun h.sequencer tStartHi_ne_zero
  have low := drives_hold (s := enter .startLo [.setLevel false, .hold s.symbol] s) nofun h.sequencer h.symbol_ne_zero
  exact high.trans low

/-- One data bit: its second half is the bit's value, as the opposite of the first half's level (R64). -/
theorem drives_bit (i : BitVec 6) :
    Drives (enterDataA i s) [⟨!frameBit s.frame i.toNat, s.symbol.toNat⟩, ⟨frameBit s.frame i.toNat, s.symbol.toNat⟩]
      (expireDataB { s with bitIdx := i, phase := .dataB, line := frameBit s.frame i.toNat, timer := s.symbol }) := by
  have first := drives_hold (s := enterDataA i s) nofun h.sequencer h.symbol_ne_zero
  have second := drives_hold
    (s := { s with bitIdx := i, phase := .dataB, line := !!frameBit s.frame i.toNat, timer := s.symbol })
    nofun h.sequencer h.symbol_ne_zero
  have both := first.trans second
  rw [Bool.not_not] at both
  exact both

/-- Phase 4 from data bit `i` on, with `m` bits after it (R65, R103). -/
theorem drives_bits {i : BitVec 6} {m : Nat} (hm : i.toNat + m = 55) :
    Drives (enterDataA i s)
      ((List.range' i.toNat (m + 1)).flatMap fun j =>
        [⟨!frameBit s.frame j, s.symbol.toNat⟩, ⟨frameBit s.frame j, s.symbol.toNat⟩])
      (enterSilence { s with bitIdx := 55 }) := by
  induction m generalizing i with
  | zero =>
    obtain rfl : i = 55 := BitVec.eq_of_toNat_eq hm
    have bit := drives_bit h 55
    rw [expireDataB_last (show ¬(55 : BitVec 6).toNat + 1 < nBits by decide)] at bit
    exact bit
  | succ m ih =>
    have bit := drives_bit h i
    rw [expireDataB_again (show i.toNat + 1 < nBits by rw [nBits]; omega)] at bit
    have hnext : (i + 1).toNat = i.toNat + 1 := by bv_omega
    have rest := ih (i := i + 1) (by omega)
    rw [hnext] at rest
    rw [List.range'_succ, List.flatMap_cons]
    exact bit.trans rest

theorem drives_data :
    Drives (enterDataA 0 s) (dataTrace s.frame s.symbol.toNat) (enterSilence { s with bitIdx := 55 }) := by
  have bits := drives_bits h (i := 0) (m := 55) rfl
  rw [dataTrace, List.range_eq_range']
  exact bits

/-- Phase 5 (R66). -/
theorem drives_silence : Drives (enterSilence s) [⟨false, tSilence.toNat⟩] (expireSilence (enterSilence s)) :=
  drives_hold (s := enterSilence s) nofun h.sequencer tSilence_ne_zero

/-- All sync pulses of a transmission that has some. -/
theorem drives_allSync (hn : s.sync ≠ 0) :
    Drives (enterSyncHi 0 s) (syncTrace s.sync.toNat s.symbol.toNat)
      (enterStartHi { s with syncIdx := s.sync - 1 }) := by
  obtain ⟨m, hm⟩ := Nat.exists_eq_succ_of_ne_zero fun h0 => hn (BitVec.eq_of_toNat_eq h0)
  rw [hm]
  exact drives_sync h (k := 0) (by rw [hm]; exact congrArg (· + 1) (Nat.zero_add m))

/-- `SYNC_IDX` at the end of a transmission; one without sync pulses keeps it. -/
def State.lastSyncIdx (s : State) : BitVec 8 := if s.sync = 0 then s.syncIdx else s.sync - 1

/-- Phases 1 and 2, as `begin_tx` selects them (R93). -/
theorem drives_beginTx :
    Drives (beginTx s.sync s) ((if s.sync.toNat = syncFirst.toNat then wakeTrace else [])
      ++ syncTrace s.sync.toNat s.symbol.toNat) (enterStartHi { s with syncIdx := s.lastSyncIdx }) := by
  rw [if_congr toNat_eq_syncFirst_iff rfl rfl, State.lastSyncIdx]
  obtain ⟨h2, hbegin⟩ | ⟨h2, h0, hbegin⟩ | ⟨h0, hbegin⟩ := beginTx_cases s.sync s <;> rw [hbegin]
  · have h0 : s.sync ≠ 0 := by rw [h2]; decide
    rw [if_pos h2, if_neg h0]
    exact (drives_wake h).trans (drives_allSync h h0)
  · rw [if_neg h2, if_neg h0]
    exact drives_allSync h h0
  · have h2 : s.sync ≠ 2 := by rw [h0]; decide
    have hsync : syncTrace s.sync.toNat s.symbol.toNat = [] := by rw [h0]; rfl
    rw [if_neg h2, if_pos h0, hsync]
    exact drives_nil (enterStartHi s)

/-- The state in the silence of the transmission begun in `s`. -/
def State.inSilence (s : State) : State := enterSilence { s with syncIdx := s.lastSyncIdx, bitIdx := 55 }

/-- A whole transmission, the phases in order (R67). -/
theorem drives_tx :
    Drives (beginTx s.sync s) (txTrace s.frame s.sync.toNat s.symbol.toNat) (expireSilence s.inSilence) := by
  have sending (k : BitVec 8) (i : BitVec 6) : ({ s with syncIdx := k, bitIdx := i } : State).Sending :=
    ⟨h.sequencer, h.symbol_pos, h.symbol_le⟩
  have phases12 := drives_beginTx h
  have phase3 := drives_start (sending s.lastSyncIdx s.bitIdx)
  have phase4 := drives_data (sending s.lastSyncIdx s.bitIdx)
  have phase5 := drives_silence (sending s.lastSyncIdx 55)
  rw [txTrace_eq]
  exact ((phases12.trans phase3).trans phase4).trans phase5

end

end Sys2Proof.Machine
end

/-! ## Whole commands (R80, R85, R86, R106) -/

section
namespace Sys2Proof.Machine

/-- The registers after a TRANSMIT accepted in `s` (R85). -/
def State.afterTransmit (s : State) (n : BitVec 8) (frame : FrameWord) : State :=
  { s with line := false, frame := frame, sync := n, timer := 0, phase := .idle,
           syncIdx := if n = 0 then s.syncIdx else n - 1, bitIdx := 55, txIdx := 0, burst := false }

/-- The registers after a SEND accepted in `s` (R80, R104). -/
def State.afterSend (s : State) (frame : FrameWord) : State :=
  { s with line := false, frame := frame, sync := 7, timer := 0, phase := .idle, syncIdx := 6, bitIdx := 55,
           txIdx := 2, burst := true }

/-- The state in which a burst begins the repeat after the transmission begun in `s` (R104). -/
def State.forRepeat (s : State) : State := { s.inSilence with txIdx := s.txIdx + 1, sync := 7 }

theorem State.forRepeat_lastSyncIdx (s : State) : s.forRepeat.lastSyncIdx = 6 := by
  have hsync : s.forRepeat.sync = 7 := rfl
  rw [State.lastSyncIdx, hsync, if_neg (by decide)]
  rfl

theorem State.Sending.forRepeat {s : State} (h : s.Sending) : s.forRepeat.Sending :=
  ⟨h.sequencer, h.symbol_pos, h.symbol_le⟩

theorem State.Sending.latch {s : State} (h : s.Sending) (frame : FrameWord) (burst : Bool) (n : BitVec 8) :
    (opLatch frame burst n s).Sending := ⟨h.sequencer, h.symbol_pos, h.symbol_le⟩

/-- In silence, a transmission of a burst that is not the last begins the next one (R104). -/
theorem drives_repeat {s : State} (h : s.Sending) (burst : s.burst = true) (ht : s.txIdx.toNat < 2) :
    Drives (beginTx s.sync s) (txTrace s.frame s.sync.toNat s.symbol.toNat) (beginTx 7 s.forRepeat) := by
  have tx := drives_tx h
  rw [expireSilence_repeat (s := s.inSilence) burst ht] at tx
  exact tx

/-- In silence, the last transmission of a command returns the block to IDLE (R104). -/
theorem drives_last {s : State} (h : s.Sending) (ht : ¬(s.burst = true ∧ s.txIdx.toNat < 2)) :
    Drives (beginTx s.sync s) (txTrace s.frame s.sync.toNat s.symbol.toNat) (opIdle s.inSilence) := by
  have tx := drives_tx h
  rw [expireSilence_end (s := s.inSilence) ht] at tx
  exact tx

section
variable {s : State} (h : s.Sending)
include h

/-- TRANSMIT drives one transmission and no repeat. -/
theorem drives_transmit (n : BitVec 8) (frame : FrameWord) :
    Drives (beginTx n (opLatch frame false n s)) (txTrace frame n.toNat s.symbol.toNat) (s.afterTransmit n frame) :=
  drives_last (h.latch frame false n) nofun

/-- SEND drives three transmissions and nothing between them. -/
theorem drives_send (frame : FrameWord) :
    Drives (beginTx 2 (opLatch frame true 2 s)) (sendTrace frame s.symbol.toNat) (s.afterSend frame) := by
  have first := h.latch frame true 2
  have tx0 := drives_repeat first rfl (show (0 : BitVec 2).toNat < 2 by decide)
  have tx1 := drives_repeat first.forRepeat rfl (show (0 + 1 : BitVec 2).toNat < 2 by decide)
  have tx2 := drives_last first.forRepeat.forRepeat fun ⟨_, ht⟩ =>
    absurd (show (0 + 1 + 1 : BitVec 2).toNat < 2 from ht) (by decide)
  rw [State.inSilence, State.forRepeat_lastSyncIdx] at tx2
  exact (tx0.trans tx1).trans tx2

end

theorem State.over_of_idle {s : State} (idle : s.phase = .idle) (ps : List PortIn) (r : List Seg) :
    s.over ps r = { s with inputs := ps, trace := r } := by
  rw [State.over, State.begun, idle, List.append_nil]

/-- What is seen of an accepted command that begins a transmission, from the tick after its acceptance to the tick at
which the block is idle again. -/
theorem Presents.observed {s t : State} {w : CmdWord} {n : BitVec 8} {frame : FrameWord} {burst : Bool} {tr : List Seg}
    (h : Presents s w) (hexec : exec (decodeCommand w) s.advance = .next (beginTx n (opLatch frame burst n s.advance)))
    (hdrives : Drives (beginTx n (opLatch frame burst n s.advance)) tr t) (idle : t.phase = .idle)
    (low : RstLow (s.inputs.take (traceTicks tr + 1))) :
    ∃ u, step s = .next u ∧ Observed u (traceTicks tr) (expand tr) (List.replicate (traceTicks tr) true)
      { t with inputs := s.inputs.drop (traceTicks tr + 1), trace := s.trace ++ tr } := by
  have hbegin := beginTx_over n (opLatch frame burst n s.advance) s.inputs.tail s.trace
  have seen := hdrives s.inputs.tail s.trace (rstLow_tail low)
  rw [← hbegin, State.over_of_idle idle, List.drop_tail] at seen
  exact ⟨_, (h.step_eq rfl).trans hexec, seen⟩

section
variable {s : State} {w : CmdWord} (h : Presents s w) (hlo : 1 ≤ s.symbol.toNat) (hhi : s.symbol.toNat ≤ 16383)
include h hlo hhi

theorem Presents.observed_transmit {n : BitVec 8} {frame : FrameWord} (hdec : decodeCommand w = .transmit n frame)
    (low : RstLow (s.inputs.take (txTicks n.toNat s.symbol.toNat + 1))) :
    ∃ u, step s = .next u ∧ Observed u (txTicks n.toNat s.symbol.toNat) (expand (txTrace frame n.toNat s.symbol.toNat))
      (List.replicate (txTicks n.toNat s.symbol.toNat) true)
      { s.afterTransmit n frame with inputs := s.inputs.drop (txTicks n.toNat s.symbol.toNat + 1),
                                     trace := s.trace ++ txTrace frame n.toNat s.symbol.toNat } := by
  have hdrives := drives_transmit (s := s.advance) ⟨h.sequencer, hlo, hhi⟩ n frame
  rw [← traceTicks_txTrace_eq_txTicks frame] at low ⊢
  exact h.observed (by rw [hdec]; rfl) hdrives rfl low

theorem Presents.observed_send {frame : FrameWord} (hdec : decodeCommand w = .send frame)
    (low : RstLow (s.inputs.take (sendTicks s.symbol.toNat + 1))) :
    ∃ u, step s = .next u ∧ Observed u (sendTicks s.symbol.toNat) (expand (sendTrace frame s.symbol.toNat))
      (List.replicate (sendTicks s.symbol.toNat) true)
      { s.afterSend frame with inputs := s.inputs.drop (sendTicks s.symbol.toNat + 1),
                               trace := s.trace ++ sendTrace frame s.symbol.toNat } := by
  have hdrives := drives_send (s := s.advance) ⟨h.sequencer, hlo, hhi⟩ frame
  rw [← traceTicks_sendTrace frame] at low ⊢
  exact h.observed (by rw [hdec]; rfl) hdrives rfl low

end

/-- Settles O48: `afterTransmit` names the end state's registers. -/
theorem transmitRunsToIdle : Obligations.TransmitRunsToIdle := by
  intro s w n frame h hdec hlo hhi low
  obtain ⟨u, hstep, seen⟩ := h.observed_transmit hlo hhi hdec low
  exact (afterTicks_succ _ hstep).trans seen.after

/-- Settles O49: `afterSend` names the end state's registers. -/
theorem sendRunsToIdle : Obligations.SendRunsToIdle := by
  intro s w frame h hdec hlo hhi low
  obtain ⟨u, hstep, seen⟩ := h.observed_send hlo hhi hdec low
  exact (afterTicks_succ _ hstep).trans seen.after

section
variable {s t : State} {k : Nat} {l : List Level} {b : List Bool} (seen : Observed t k l b s)
variable {n : BitVec 8} {frame : FrameWord} {ps : List PortIn} {symbol : Nat}
variable (idle : s.phase = .idle) (seq : s.microProg = none)
  (hsymbol : s.symbol.toNat = symbol) (hlo : 1 ≤ symbol) (hhi : symbol ≤ 16383)
  (hin : s.inputs = { rst := false, cmdValid := true, cmd := 2#2 ++ n ++ frame } :: ps)
  (low : RstLow (ps.take (txTicks n.toNat symbol)))
include idle seq hsymbol hlo hhi hin low

/-- A TRANSMIT's word presented to an idle block, and the inputs `ps` after it. -/
theorem observed_transmit_word :
    ∃ u, step s = .next u ∧ Observed u (txTicks n.toNat symbol) (expand (txTrace frame n.toNat symbol))
      (List.replicate (txTicks n.toNat symbol) true)
      { s.afterTransmit n frame with inputs := ps.drop (txTicks n.toNat symbol),
                                     trace := s.trace ++ txTrace frame n.toNat symbol } := by
  subst hsymbol
  have hport := State.port_cons hin
  have h : Presents s (2#2 ++ n ++ frame) := ⟨idle, seq, by rw [hport], by rw [hport], by rw [hport]⟩
  have lowAll : RstLow (s.inputs.take (txTicks n.toNat s.symbol.toNat + 1)) := by
    rw [hin, List.take_succ_cons]
    exact List.forall_mem_cons.2 ⟨rfl, low⟩
  have seen := h.observed_transmit hlo hhi (decodeCommand_transmit_word n frame) lowAll
  rw [hin, List.drop_succ_cons] at seen
  exact seen

include seen

/-- A TRANSMIT presented at the first tick at which the block is idle again: one LOW tick, then its transmission. -/
theorem Observed.trans_transmit (line : s.line = false) :
    Observed t (k + 1 + txTicks n.toNat symbol) (l ++ [false] ++ expand (txTrace frame n.toNat symbol))
      (b ++ [false] ++ List.replicate (txTicks n.toNat symbol) true)
      { s.afterTransmit n frame with inputs := ps.drop (txTicks n.toNat symbol),
                                     trace := s.trace ++ txTrace frame n.toNat symbol } := by
  obtain ⟨u, hstep, tx⟩ := observed_transmit_word idle seq hsymbol hlo hhi hin low
  have accept := observed_step hstep
  rw [line, busy_of_idle idle] at accept
  exact (seen.trans accept).trans tx

end

/-- Settles O52: after each of the first two transmissions the block is idle for the tick at which it accepts the
next word. -/
theorem threeTransmitsAreNotASend : Obligations.ThreeTransmitsAreNotASend := by
  intro s frame ps qs rs idle seq hlo hhi hps hqs lowPs lowQs lowRs hin
  replace hps : ps.length = txTicks (2#8).toNat s.symbol.toNat := hps
  replace hqs : qs.length = txTicks (7#8).toNat s.symbol.toNat := hqs
  obtain ⟨t, hstep, first⟩ :=
    observed_transmit_word idle seq rfl hlo hhi hin (by rw [List.take_left' hps]; exact lowPs)
  rw [List.drop_left' hps] at first
  have second := first.trans_transmit (symbol := s.symbol.toNat) rfl seq rfl hlo hhi rfl
    (by rw [List.take_left' hqs]; exact lowQs) rfl
  rw [List.drop_left' hqs] at second
  have third := second.trans_transmit (symbol := s.symbol.toNat) rfl seq rfl hlo hhi rfl lowRs rfl
  have hticks : sendTicks s.symbol.toNat + 2
      = txTicks 2 s.symbol.toNat + 1 + txTicks 7 s.symbol.toNat + 1 + txTicks 7 s.symbol.toNat := by
    rw [sendTicks_eq]; omega
  rw [hticks]
  exact ⟨t, _, hstep, third.wave, third.busyWave, third.after, rfl, rfl, rfl⟩

end Sys2Proof.Machine
end

/-! ## The hold counter, the traces and the latency of a command (R94, R106, R107) -/

section
namespace Sys2Proof.Machine

/-- Settles O19: the counter runs down while it is above 1, and `busyHold_observed` is the whole hold. -/
theorem holdCounterOfABusyBlock : Obligations.HoldCounterOfABusyBlock := by
  intro s busy seq running low
  have inUse := timerInUse_of_busy busy seq
  have hold := busyHold_observed busy seq (symbol_ne_zero running) low
  refine ⟨fun k hk => (countDown_run inUse hk (rstLow_mono hk.le low)).1, ?_, hold.wave⟩
  rw [hold.after]
  exact congrArg some (expire_timer (s := { s with inputs := s.inputs.drop s.timer.toNat }) busy 1).symm

/-- Settles O47, by what is seen of each command from its acceptance to its end. -/
theorem sequencerAgreesWithTheTraces : Obligations.SequencerAgreesWithTheTraces := by
  constructor
  · intro s w n frame h hdec hlo hhi low
    obtain ⟨t, hstep, seen⟩ := h.observed_transmit hlo hhi hdec low
    exact ⟨t, _, hstep, seen.wave, seen.after, rfl⟩
  · intro s w frame h hdec hlo hhi low
    obtain ⟨t, hstep, seen⟩ := h.observed_send hlo hhi hdec low
    exact ⟨t, _, hstep, seen.wave, seen.after, rfl⟩

/-- A command that begins a transmission drives the line HIGH from the tick after its acceptance (R107). -/
theorem Presents.line_of_beginTx {s t s' : State} {w : CmdWord} {n : BitVec 8} (h : Presents s w)
    (hexec : exec (decodeCommand w) s.advance = .next (beginTx n s')) (hstep : step s = .next t) : t.line = true := by
  rw [h.step_eq rfl, hexec] at hstep
  cases hstep
  obtain ⟨-, -, -, -, -, -, -, -, high⟩ := beginTx_frame n s'
  exact high

/-- Settles O50: the idle line is LOW by the invariants, and the rest is seen of the command's ticks. -/
theorem latencyAndSpacing : Obligations.LatencyAndSpacing := by
  intro s w total inv h hcommand low
  obtain ⟨hlo, hhi⟩ := inv.symbol_legal
  refine ⟨inv.line_low (.inl h.idle), busy_of_idle h.idle, ?_⟩
  obtain ⟨n, frame, hdec, rfl⟩ | ⟨frame, hdec, rfl⟩ := hcommand
  · obtain ⟨t, hstep, seen⟩ := h.observed_transmit hlo hhi hdec low
    have high := h.line_of_beginTx (n := n) (s' := opLatch frame false n s.advance) (by rw [hdec]; rfl) hstep
    exact ⟨t, _, hstep, high, seen.busyWave, seen.after, rfl, rfl, rfl, busy_of_idle rfl⟩
  · obtain ⟨t, hstep, seen⟩ := h.observed_send hlo hhi hdec low
    have high := h.line_of_beginTx (n := 2) (s' := opLatch frame true 2 s.advance) (by rw [hdec]; rfl) hstep
    exact ⟨t, _, hstep, high, seen.busyWave, seen.after, rfl, rfl, rfl, busy_of_idle rfl⟩

end Sys2Proof.Machine
end

/-! ## The handshake and acceptance (R92, R93, R105) -/

section
namespace Sys2Proof.Machine

theorem busy_iff (s : State) : s.busy = true ↔ s.phase ≠ .idle := decide_eq_true_iff

theorem cmdReady_iff (s : State) : s.cmdReady = true ↔ s.phase = .idle ∧ s.port.rst = false := by
  rw [State.cmdReady, Bool.and_eq_true, decide_eq_true_iff, Bool.not_eq_true']

/-- A step without acceptance: a reset, an idle tick, or the hold counter's. -/
theorem step_of_not_accepted {s : State} (seq : s.microProg = none)
    (h : ¬(s.port.cmdValid = true ∧ s.cmdReady = true)) :
    step s = .next (if s.port.rst then applyReset s.advance
      else if s.advance.phase = .idle then s.advance else holdCounter s.advance) := by
  cases low : s.port.rst with
  | true => exact step_of_rst low
  | false =>
    rw [if_neg Bool.false_ne_true]
    by_cases idle : s.phase = .idle
    · have notValid : ¬s.port.cmdValid = true := fun valid => h ⟨valid, cmdReady_of_idle idle low⟩
      rw [step_of_idle low seq idle, acceptCommand, if_neg notValid, if_pos (c := s.advance.phase = .idle) idle]
    · rw [step_of_busy low seq idle, if_neg (c := s.advance.phase = .idle) idle]

/-- Without acceptance two blocks that differ on the port alone, but not in `rst`, step alike. -/
theorem step_congr_of_not_accepted {s t : State} (seq : s.microProg = none) (hadvance : s.advance = t.advance)
    (hrst : s.port.rst = t.port.rst) (hs : ¬(s.port.cmdValid = true ∧ s.cmdReady = true))
    (ht : ¬(t.port.cmdValid = true ∧ t.cmdReady = true)) : step s = step t := by
  have seq' : t.microProg = none := (congrArg State.microProg hadvance).symm.trans seq
  rw [step_of_not_accepted seq hs, step_of_not_accepted seq' ht, hadvance, hrst]

/-- A block that is ready and is presented a word accepts it. -/
theorem presents_port {s : State} (seq : s.microProg = none) (idle : s.phase = .idle) (low : s.port.rst = false)
    (valid : s.port.cmdValid = true) : Presents s s.port.cmd := ⟨idle, seq, low, valid, rfl⟩

/-- Settles O3: the outputs are their definitions, and a step that accepts nothing reads `rst` alone of the port. -/
theorem handshakeDecidesAcceptance : Obligations.HandshakeDecidesAcceptance := by
  intro s seq
  refine ⟨rfl, busy_iff s, cmdReady_iff s, ?_, ?_⟩
  · rintro ⟨valid, ready⟩
    obtain ⟨idle, low⟩ := (cmdReady_iff s).1 ready
    exact (presents_port seq idle low valid).step_eq rfl
  · intro notAccepted c v hv
    refine step_congr_of_not_accepted seq rfl rfl ?_ notAccepted
    rintro ⟨valid, ready⟩
    exact Bool.false_ne_true ((hv valid).symm.trans ready)

/-- Settles O7: each value of `op` decodes to its command, whose meaning is the branch R92 gives. -/
theorem idleAcceptance : Obligations.IdleAcceptance := by
  constructor
  · intro s idle seq low
    refine ⟨fun notValid => ?_, fun valid => ?_⟩
    · rw [step_of_idle low seq idle, acceptCommand, notValid]; rfl
    · have h := presents_port seq idle low valid
      exact ⟨fun op => h.step_eq (decodeCommand_of_op_zero op),
        fun op => (h.step_eq (decodeCommand_of_op_three op)).trans (execSetsym_eq _ _),
        fun op => h.step_eq (decodeCommand_of_op_one op), fun op => h.step_eq (decodeCommand_of_op_two op)⟩
  · intro s p q ps busy seq hrst
    have notReady (r : PortIn) : ¬(r.cmdValid = true ∧ State.cmdReady { s with inputs := r :: ps } = true) :=
      fun ⟨_, ready⟩ => busy ((cmdReady_iff _).1 ready).1
    exact step_congr_of_not_accepted (s := { s with inputs := p :: ps }) seq rfl hrst (notReady p) (notReady q)

/-- Settles O8, by the sync count. -/
theorem beginTxSelectsFirstHold : Obligations.BeginTxSelectsFirstHold := by
  intro n s
  refine ⟨?_, fun h2 h0 => ?_, ?_⟩
  · rintro rfl; rfl
  · rw [beginTx_eq_enterSyncHi h2 h0]; rfl
  · rintro rfl; rfl

end Sys2Proof.Machine
end

/-! ## The expiry of each phase (R95 to R104) -/

section
namespace Sys2Proof.Machine

/-- At the last tick of a hold the expiry rule of the phase applies (R94). -/
theorem step_of_last_tick {s : State} {p : Phase} (seq : s.microProg = none) (low : s.port.rst = false)
    (last : s.timer = 1) (hp : s.phase = p) (busy : p ≠ .idle) : step s = .next (expireOf p s.advance) := by
  have notLt : ¬1 < s.advance.timer.toNat := by rw [State.advance_timer, last]; decide
  rw [step_of_busy low seq (hp ▸ busy), holdCounter_of_not_lt notLt, expire_eq (s := s.advance) hp]

/-- Settles O20: the state each rule enters is the one written out. -/
theorem wakeUpPhasesExpire : Obligations.WakeUpPhasesExpire := fun _ seq low last =>
  ⟨fun hp => step_of_last_tick seq low last hp nofun, fun hp => step_of_last_tick seq low last hp nofun,
    fun hp => step_of_last_tick seq low last hp nofun⟩

/-- Settles O21, the loop by its comparison. -/
theorem syncPhasesExpire : Obligations.SyncPhasesExpire := by
  intro s seq low last
  refine ⟨fun hp => step_of_last_tick seq low last hp nofun, fun hp again => ?_, fun hp done => ?_⟩
  · rw [step_of_last_tick seq low last hp nofun, expireOf, expireSyncLo_again (s := s.advance) again]; rfl
  · rw [step_of_last_tick seq low last hp nofun, expireOf, expireSyncLo_last (s := s.advance) done]; rfl

/-- The first data bit is bit 7 of byte 0 (R101). -/
theorem frameBit_zero (frame : FrameWord) : frameBit frame 0 = (frameByte frame 0).getLsbD 7 :=
  BitVec.getLsbD_ushiftRight ..

/-- Settles O22: START_LO enters the first data bit. -/
theorem frameStartPhasesExpire : Obligations.FrameStartPhasesExpire := by
  intro s seq low last
  refine ⟨fun hp => step_of_last_tick seq low last hp nofun, fun hp => ?_⟩
  rw [← frameBit_zero]
  exact step_of_last_tick seq low last hp nofun

/-- Settles O23, the loop by its comparison. -/
theorem dataPhasesExpire : Obligations.DataPhasesExpire := by
  intro s seq low last
  refine ⟨fun hp => step_of_last_tick seq low last hp nofun, fun hp again => ?_, fun hp done => ?_⟩
  · have hnext : (s.bitIdx + 1).toNat = s.bitIdx.toNat + 1 := by bv_omega
    rw [step_of_last_tick seq low last hp nofun, expireOf,
      expireDataB_again (s := s.advance) (Nat.succ_lt_succ again), ← hnext]
    rfl
  · rw [step_of_last_tick seq low last hp nofun, expireOf,
      expireDataB_last (s := s.advance) (Nat.not_lt.2 (Nat.succ_le_succ done))]
    rfl

/-- Settles O24: a repeat's sync count 7 begins with a sync pulse. -/
theorem silenceExpires : Obligations.SilenceExpires := by
  intro s seq low last hp
  rw [step_of_last_tick seq low last hp nofun, expireOf]
  refine ⟨fun ⟨burst, more⟩ => ?_, fun done => ?_⟩
  · rw [expireSilence_repeat (s := s.advance) burst more, beginTx_eq_enterSyncHi (by decide) (by decide)]; rfl
  · rw [expireSilence_end (s := s.advance) done]; rfl

end Sys2Proof.Machine
end

/-! ## No exception (R90, R110) -/

section
namespace Sys2Proof.Machine

/-- Every command word executes in every state: each thing `exec_command` lists is a next state. -/
theorem exec_command_completes (w : CmdWord) (s : State) : ∃ t, exec (decodeCommand w) s = .next t := by
  obtain unchanged | ⟨n, _, stored⟩ | ⟨f, n, b, _, begun⟩ := exec_command w s
  · exact ⟨_, unchanged⟩
  · exact ⟨_, stored⟩
  · exact ⟨_, begun⟩

/-- A step that accepts a command is the command's; any other is total by itself. -/
theorem step_completes {s : State} (seq : s.microProg = none) : ∃ t, step s = .next t := by
  by_cases accepted : s.port.cmdValid = true ∧ s.cmdReady = true
  · obtain ⟨valid, ready⟩ := accepted
    obtain ⟨idle, low⟩ := (cmdReady_iff s).1 ready
    obtain ⟨t, ht⟩ := exec_command_completes s.port.cmd s.advance
    exact ⟨t, ((presents_port seq idle low valid).step_eq rfl).trans ht⟩
  · exact ⟨_, step_of_not_accepted seq accepted⟩

/-- Settles O27: the handshake decides whether a step runs a command, and every command completes. -/
theorem noStepOfTheBlockStops : Obligations.NoStepOfTheBlockStops :=
  ⟨fun _ => step_completes, exec_command_completes⟩

end Sys2Proof.Machine
end

/-! ## Reset (R108, R115, R125, R126) -/

section
namespace Sys2Proof.Machine

theorem step_of_rst_cons {s : State} {p : PortIn} {ps : List PortIn} (high : p.rst = true) (hin : s.inputs = p :: ps) :
    step s = .next { State.reset with inputs := ps } := by
  rw [step_of_rst (by rw [State.port_cons hin]; exact high), applyReset_eq, State.advance_inputs, hin]
  rfl

/-- A block whose `rst` is high from this tick on is in the reset state at each tick that follows. -/
theorem afterTicks_of_rst {s : State} {p : PortIn} {ps qs : List PortIn} (high : ∀ q ∈ p :: ps, q.rst = true)
    (hin : s.inputs = p :: ps ++ qs) : afterTicks (ps.length + 1) s = some { State.reset with inputs := qs } := by
  induction ps generalizing s p with
  | nil =>
    rw [List.length_nil, afterTicks_succ 0 (step_of_rst_cons (high p (by simp)) hin)]
    rfl
  | cons q ps ih =>
    obtain ⟨hp, hps⟩ := List.forall_mem_cons.1 high
    rw [List.length_cons, afterTicks_succ _ (step_of_rst_cons hp hin)]
    exact ih hps rfl

/-- Settles O2: a tick with `rst` high resets, and so does each that follows while `rst` stays high. -/
theorem resetInputForcesResetState : Obligations.ResetInputForcesResetState := by
  refine ⟨fun s high => ⟨_, step_of_rst high, rfl, ?_⟩, fun s ps qs ne high hin => ?_, rfl⟩
  · rw [State.cmdReady, high, Bool.not_true, Bool.and_false]
  · obtain ⟨p, ps, rfl⟩ := List.exists_cons_of_ne_nil ne
    exact ⟨_, afterTicks_of_rst high hin, rfl, rfl, cmdReady_of_idle rfl⟩

/-- Settles O6, by the level of `rst`. -/
theorem offerToABusyBlockFaults : Obligations.OfferToABusyBlockFaults := by
  intro s ws busy offered
  cases hrst : s.port.rst with
  | true => exact step_of_rst hrst
  | false => exact step_of_micro_busy hrst offered ((busy_iff s).1 busy)

end Sys2Proof.Machine
end

/-! ## A step reads the inputs of its own tick only (R19, R90) -/

section
namespace Sys2Proof.Machine

theorem beginTx_withInputs (n : BitVec 8) (s : State) (ps : List PortIn) :
    beginTx n { s with inputs := ps } = { beginTx n s with inputs := ps } := by
  have kept : beginTx n s = (beginTx n s).over s.inputs s.trace := beginTx_over n s s.inputs s.trace
  rw [beginTx_over n s ps s.trace, kept]
  rfl

theorem expire_withInputs {s : State} (busy : s.phase ≠ .idle) (ps : List PortIn) :
    expire { s with inputs := ps } = { expire s with inputs := ps } := by
  have kept : expire s = (expire s).over s.inputs s.trace := expire_over busy s.inputs s.trace
  rw [expire_over busy ps s.trace, kept]
  rfl

theorem holdCounter_withInputs {s : State} (busy : s.phase ≠ .idle) (ps : List PortIn) :
    holdCounter { s with inputs := ps } = { holdCounter s with inputs := ps } := by
  by_cases more : 1 < s.timer.toNat
  · rw [holdCounter_of_lt more, holdCounter_of_lt (s := { s with inputs := ps }) more]; rfl
  · rw [holdCounter_of_not_lt more, holdCounter_of_not_lt (s := { s with inputs := ps }) more,
      expire_withInputs busy]

theorem exec_withInputs {i : Instr} {s t : State} (h : exec i s = .next t) (ps : List PortIn) :
    exec i { s with inputs := ps } = .next { t with inputs := ps } := by
  cases i with
  | nop | setLevel | toggle => cases h; rfl
  | send frame => cases h; exact congrArg _ (beginTx_withInputs syncFirst (opLatch frame true syncFirst s) ps)
  | transmit n frame => cases h; exact congrArg _ (beginTx_withInputs n (opLatch frame false n s) ps)
  | setsym n =>
    cases h
    show execSetsym n _ = _
    rw [execSetsym]
    split <;> rfl
  | hold d =>
    by_cases hd : d = 0
    · subst hd; cases h
    · cases (execHold_of_ne_zero hd s).symm.trans h
      exact execHold_of_ne_zero hd _

theorem acceptCommand_withInputs {p : PortIn} {s t : State} (h : acceptCommand p s = .next t) (ps : List PortIn) :
    acceptCommand p { s with inputs := ps } = .next { t with inputs := ps } := by
  by_cases valid : p.cmdValid = true
  · rw [acceptCommand, if_pos valid] at h ⊢
    exact exec_withInputs h ps
  · rw [acceptCommand, if_neg valid] at h ⊢
    cases h; rfl

/-- Of the inputs a step reads the port alone, in each case of R108; the others it hands on. -/
theorem step_withInputs {s t : State} {ps : List PortIn} (seq : s.microProg = none) (h : step s = .next t)
    (hport : ({ s with inputs := ps } : State).port = s.port) :
    step { s with inputs := ps } = .next { t with inputs := ps.tail } := by
  have hrst := congrArg PortIn.rst hport
  cases rst : s.port.rst with
  | true =>
    rw [step_of_rst rst] at h
    cases h
    exact step_of_rst (hrst.trans rst)
  | false =>
    by_cases idle : s.phase = .idle
    · rw [step_of_idle rst seq idle] at h
      rw [step_of_idle (s := { s with inputs := ps }) (hrst.trans rst) seq idle, hport]
      exact acceptCommand_withInputs h ps.tail
    · rw [step_of_busy rst seq idle] at h
      cases h
      rw [step_of_busy (s := { s with inputs := ps }) (hrst.trans rst) seq idle]
      exact congrArg _ (holdCounter_withInputs (s := s.advance) idle ps.tail)

/-- No step of a block driven by its own sequencer makes an offer to the Bit Timer. -/
theorem step_microProg {s t : State} (seq : s.microProg = none) (h : step s = .next t) : t.microProg = none := by
  obtain ⟨-, rfl⟩ | ⟨-, -, rfl⟩ | ⟨-, -, n, -, rfl⟩ | ⟨-, -, f, n, b, -, rfl⟩ | ⟨-, -, -, rfl⟩ | ⟨-, -, -, rfl⟩ :=
    step_cases seq h
  · rfl
  · exact seq
  · exact seq
  · obtain ⟨-, -, -, -, -, -, -, hm, -⟩ := beginTx_frame n (opLatch f b n s.advance)
    exact hm.trans seq
  · exact seq
  · obtain ⟨-, -, -, -, hm⟩ := expire_frame s.advance
    exact hm.trans seq

/-- With the inputs `ps` first, the block runs for the ticks that read them, whatever follows; and what it drives up
to the next tick does not depend on what follows. -/
theorem run_inputs_append {s : State} (seq : s.microProg = none) (ps qs : List PortIn) :
    (∃ t, afterTicks ps.length { s with inputs := ps ++ qs } = some t ∧ t.inputs = qs)
    ∧ wave (ps.length + 1) { s with inputs := ps ++ qs } = wave (ps.length + 1) { s with inputs := ps } := by
  induction ps generalizing s with
  | nil => exact ⟨⟨_, rfl, rfl⟩, by rw [List.length_nil, wave_one, wave_one]⟩
  | cons p ps ih =>
    obtain ⟨t, ht⟩ := step_completes (s := { s with inputs := p :: (ps ++ qs) }) seq
    have hstep (rs : List PortIn) : step { s with inputs := p :: rs } = .next { t with inputs := rs } :=
      step_withInputs (s := { s with inputs := p :: (ps ++ qs) }) (ps := p :: rs) seq ht rfl
    obtain ⟨hafter, hwave⟩ := ih (step_microProg (s := { s with inputs := p :: (ps ++ qs) }) seq ht)
    rw [List.length_cons, List.cons_append, afterTicks_succ _ (hstep _), wave_succ _ (hstep _), wave_succ _ (hstep _),
      hwave]
    exact ⟨hafter, rfl⟩

end Sys2Proof.Machine
end

/-! ## A reset during a command (R115, R127) -/

section
namespace Sys2Proof.Machine

theorem take_wave {k n : Nat} (hkn : k ≤ n) (s : State) : (wave n s).take k = wave k s := by
  induction k generalizing n s with
  | zero => rfl
  | succ k ih =>
    obtain ⟨n, rfl⟩ := Nat.exists_eq_add_of_le' (Nat.zero_lt_of_lt hkn)
    rw [wave, wave, List.take_succ_cons]
    cases step s with
    | next t => exact congrArg _ (ih (Nat.le_of_succ_le_succ hkn) t)
    | fault | refused => exact congrArg _ List.take_nil

/-- The waveform of a command that no reset cuts (R106). -/
theorem Presents.wave_command {s : State} {w : CmdWord} {trace : List Seg} (h : Presents s w)
    (hlo : 1 ≤ s.symbol.toNat) (hhi : s.symbol.toNat ≤ 16383)
    (hcommand : (∃ n frame, decodeCommand w = .transmit n frame ∧ trace = txTrace frame n.toNat s.symbol.toNat)
      ∨ (∃ frame, decodeCommand w = .send frame ∧ trace = sendTrace frame s.symbol.toNat))
    (low : RstLow (s.inputs.take (traceTicks trace + 1))) :
    wave (traceTicks trace + 1) s = s.line :: expand trace := by
  obtain ⟨n, frame, hdec, rfl⟩ | ⟨frame, hdec, rfl⟩ := hcommand
  · rw [traceTicks_txTrace_eq_txTicks] at low ⊢
    obtain ⟨t, hstep, seen⟩ := h.observed_transmit hlo hhi hdec low
    rw [wave_succ _ hstep, seen.wave]
  · rw [traceTicks_sendTrace] at low ⊢
    obtain ⟨t, hstep, seen⟩ := h.observed_send hlo hhi hdec low
    rw [wave_succ _ hstep, seen.wave]

/-- A host that goes quiet after the first ticks presents the same word. -/
theorem Presents.take_inputs {s : State} {w : CmdWord} (h : Presents s w) (j : Nat) :
    Presents { s with inputs := s.inputs.take (j + 1) } w := by
  have hport : ({ s with inputs := s.inputs.take (j + 1) } : State).port = s.port := by
    cases hin : s.inputs with
    | nil => rw [State.port_nil hin]; rfl
    | cons p ps => rw [State.port_cons hin]; rfl
  exact ⟨h.idle, h.sequencer, by rw [hport]; exact h.rst_low, by rw [hport]; exact h.valid,
    by rw [hport]; exact h.word⟩

/-- Settles O51: up to the tick at which `rst` is high the block cannot tell the host from one that goes quiet there,
and that tick's step is the reset. -/
theorem resetCutsTheWaveform : Obligations.ResetCutsTheWaveform := by
  intro s w trace k r h hlo hhi hcommand hk hkT low hr high
  obtain ⟨j, rfl⟩ := Nat.exists_eq_add_of_le' hk
  obtain ⟨hlt, hget⟩ := List.getElem?_eq_some_iff.1 hr
  have hdrop : s.inputs.drop (j + 1) = r :: s.inputs.drop (j + 1 + 1) := by rw [List.drop_eq_getElem_cons hlt, hget]
  have hlen : (s.inputs.take (j + 1)).length = j + 1 := List.length_take_of_le hlt.le
  obtain ⟨⟨v, hafter, hv⟩, hwave⟩ :=
    run_inputs_append h.sequencer (s.inputs.take (j + 1)) (s.inputs.drop (j + 1))
  rw [List.take_append_drop, hlen] at hafter hwave
  obtain ⟨t, hstep, ht⟩ := step_of_afterTicks_succ hafter
  have hquiet := (h.take_inputs j).wave_command hlo hhi hcommand (fun p hp => low p (List.mem_of_mem_take hp))
  have hcut : s.line :: wave (j + 1) t = s.line :: (expand trace).take (j + 1) := by
    rw [← wave_succ _ hstep, hwave, ← take_wave (Nat.succ_le_succ hkT), hquiet, List.take_succ_cons]
  refine ⟨t, _, hstep, (List.cons.inj hcut).2, ?_, rfl, rfl⟩
  rw [afterTicks_add j 1 ht, afterTicks_succ 0 (step_of_rst_cons high (hv.trans hdrop))]
  rfl

end Sys2Proof.Machine
end
